-- ==== Sys2Proof/Word.lean ====
section
/-!
DEFINITION. The word types of the QK-9640 and the type of its sparse tables.
-/

namespace Sys2Proof

/-- One byte of a memory, buffer, record or packet. -/
abbrev Byte := BitVec 8
/-- A 16-bit field. -/
abbrev W16 := BitVec 16
/-- A 32-bit register or word. -/
abbrev W32 := BitVec 32
/-- A 64-bit register or word. -/
abbrev W64 := BitVec 64

/-- A table over the natural numbers in one canonical form: keys strictly rising, no entry equal to
what an unlisted key reads as (see `Sys2Proof.Machine.tblGet`). -/
abbrev Tbl (α : Type) := List (Nat × α)

end Sys2Proof
end

