-- ==== Sys2Proof/Syntax.lean ====
section
/-!
DEFINITION. The commands of the QK-9640 block and their operand types.
-/

namespace Sys2Proof

/-- How a read of host memory answered (R381, R395): with data, with an error status (Unsupported
Request or Completer Abort), poisoned, or not at all within the bound. -/
inductive HostFail where
  | none | ur | poisoned | timeout
  deriving DecidableEq, Repr

/-- What a read of host memory returned. Host memory lies outside the block, so every command that
ends such a read carries the bytes: `cells` lists them by host address, a byte not listed is 0. -/
structure HostView where
  cells : List Host.Cell
  fail  : HostFail
  deriving DecidableEq, Repr

/-- The path by which a setup register is reached (R511). -/
inductive RegPath where
  | host | mirror | mgmt | debug
  deriving DecidableEq, Repr

/-- What a host read that does not fall on BAR0 asks (R373): bytes of BAR2's window, bytes of BAR4, or an AtomicOp. -/
inductive HostReq where
  | window (len : Nat) | table (len : Nat) | atomic
  deriving DecidableEq, Repr

/-- What the exchange with an IEEE 1588 master yields at a Sync message: the time of the timescale, and whether the servo counts as
locked (R56). -/
structure PtpSync where
  time   : W64
  locked : Bool
  deriving DecidableEq, Repr

/-- A scalar load of a tiller, and whether its read finds an uncorrectable error of the tile's SRAM (R131, R153). -/
structure TileRead where
  e   : Nat
  err : Bool
  deriving DecidableEq, Repr

/-- What a home and a die cache find at a FILL: an uncorrectable directory entry, and the lines the die cache found uncorrectable
(R269). -/
structure FillCheck where
  dirErr : Bool
  bad    : List Nat
  deriving DecidableEq, Repr

/-- The time at which a flit is sent: the place in the beat (R46), the beats its packet has waited on this chip (R326), and the
timestamp of a training block (Table 16-9). -/
structure FlitTime where
  phase : W16
  age   : Nat
  stamp : W64
  deriving DecidableEq, Repr

/-- What comes with the fields of a received flit: its CRC, the codewords that end in it (symbol errors of each, and whether it is the
last flit of the codeword), and the place in the beat (R49, R298, R299). -/
structure FlitCheck where
  crc   : W32
  cws   : List (Nat × Bool)
  phase : W16
  deriving DecidableEq, Repr

/-- The event registers of BAR0, one for each block that has one (R516). `seq` is MEM_SEQ_STATUS. -/
inductive EvBlk where
  | hif | beat | mem | memArb | shf | opt | link | rt | ckt | rmt
  | mir | mgt | mgtNet | pwr | thm | inv | cal | dbg | seq
  deriving DecidableEq, Repr

/-- The four instruction queues of a tiller (R69). -/
inductive EngQueue where
  | mm | vx | mv | sf
  deriving DecidableEq, Repr

/-- The queue whose head issues, and the queues whose unit has had the last issue cycle of what it executes (R71). -/
structure IssueAt where
  qu    : EngQueue
  freed : List EngQueue
  deriving DecidableEq, Repr

/-- A micro-ring with a lock loop (R242, R244): the drop filter or the modulator of channel `k` of
port `p`, or ring `g` of the glume bank of sheaf `d`. -/
inductive RingId where
  | drop (p k : Nat)
  | modulator (p k : Nat)
  | glume (d g : Nat)
  deriving DecidableEq, Repr

/-- What a bring-up step found (Table 24-4). Only the fields of the step in progress are looked at.
`invOk`: the inventory record read at CAL_LOAD is valid (R457). `stacks`: stacks that could not be
trained (HBM_TRAIN). `wires`: for each die-to-die interface, numbered as in CAL_INV_WIRE, whose
training brought spare wires in, how many each of its groups of 64 needs (HBM_TRAIN for the sites of
memory-side dies, D2D_TRAIN for the others; more than 4 cannot be repaired, R15). `tiles`: for each
physical tile whose self-test failed, the failing columns and whether something else failed too
(SELF_TEST). -/
structure StageReport where
  invOk   : Bool
  stackTab  : List Nat
  wires   : List (Nat × List Nat)
  tiles   : List (Nat × List Nat × Bool)
  deriving DecidableEq, Repr

/-- The identity a port exchanges in PEER messages (Table 16-3). -/
structure PeerId where
  serial  : BitVec 128
  chip    : W16
  port    : BitVec 6
  storage : Bool
  deriving DecidableEq, Repr

/-- A packet: its 32-byte header (Table 16-4) and its payload. -/
structure Packet where
  ptype   : BitVec 4
  epoch   : Bool
  mcast   : Bool
  slice   : BitVec 12
  rflags  : BitVec 4
  hops    : BitVec 5
  age     : W16
  dst     : W16
  src     : W16
  offset  : BitVec 48
  tag     : W16
  status  : Byte
  aop     : BitVec 3
  last    : Bool
  stream  : W16
  aux     : W64
  payload : List Byte
  deriving DecidableEq, Repr

/-- A flit: its link header (Table 16-2) and its 240 bytes of payload. The CRC that came with it is an
operand of the receiving command. -/
structure Flit where
  beat    : W32
  seqn    : BitVec 10
  ack     : BitVec 10
  ackLane : BitVec 3
  nak     : Bool
  vc      : BitVec 3
  kind    : BitVec 2
  sop     : Bool
  crVc    : BitVec 3
  crCount : BitVec 5
  mtype   : BitVec 4
  index   : BitVec 4
  data    : W16
  payload : List Byte
  deriving DecidableEq, Repr

/-- A management message (Table 25-2). `src` is the IPv4 source address of a message that came over
the management port, or none for one that came over I3C (R487). -/
structure MgmtMsg where
  src     : Option W32
  ver     : Byte
  type    : Byte
  status  : Byte
  seqn    : W32
  len     : W32
  payload : List Byte
  deriving DecidableEq, Repr

/-- The commands of the block: one constructor for each row of spec/opcode_table.json, in its order.
A command takes the operands its step needs from outside: the register value written, the port,
engine, die or queue it names, the answer of a host-memory read, what a sensor or a wait of the
physics reported. -/
inductive Instr where
  /-- AUX_POWER_UP (R465): AUX rails come up and the whole package, AUX domain included, is reset (KIND 0). -/
  | auxPowerUp
  /-- AUX_POWER_LOSS (R20): AUX supply fails and the bypass controller drives every enabled switch to bypass from the hold-up capacitor. -/
  | auxPowerLoss
  /-- HOLDUP_OK_RISE (R467): The hold-up capacitor reaches its charge and HOLDUP_OK rises. -/
  | holdupOkRise
  /-- HOLDUP_LOW (R308): HOLDUP_OK falls to 0 and HOLDUP_LOW is set. -/
  | holdupLow
  /-- PWR_GOOD_RISE (R467): A PWR_GOOD input rises and the device checks the rail order. -/
  | pwrGoodRise (g : Nat)
  /-- PWR_GOOD_FALL (R465): A PWR_GOOD falls while RESET_N is high and the core domain is reset (KIND 3). -/
  | pwrGoodFall (g : Nat)
  /-- RESET_N_ASSERT (R466): RESET_N falls, the core domain is reset and enabled bypass switches move to bypass. -/
  | resetNAssert
  /-- RESET_N_RELEASE (R468): RESET_N rises and the boot ROM starts. -/
  | resetNRelease (romOk : Bool) (fref : Bool) (temps : List Int)
  /-- FREF_LOCK_TIMEOUT (R529): FREF has not locked within 1 s of RESET_N rising and the ROM reports FAILED with ROM_SELFTEST. -/
  | frefLockTimeout
  /-- LOW_TEMP_RECHECK (R448): The 1 s recheck finds whether every trip-path reading is at 0 °C or above, so that core bring-up may begin. -/
  | lowTempRecheck (temps : List Int)
  /-- BOOT_GO (R471): GO in HIF_BOOT_CMD starts verification of the image in the boot buffer. -/
  | bootGo (v : W32)
  /-- BOOT_VERIFY_DONE (R471): Image verification ends; on success measurements are taken and the firmware starts, otherwise the ROM returns to WAIT_IMAGE. -/
  | bootVerifyDone
  /-- BRINGUP_STEP_END (R474): A firmware bring-up stage ends or reaches its bound and the next stage begins. -/
  | bringupStepEnd (r : StageReport)
  /-- HIF_SETUP_LOCK (R375): A write of LOCK makes every RWL field read-only until reset. -/
  | hifSetupLock (v : W32)
  /-- START (R378): HIF_Q_CMD START reads the queue table entry and makes the queue ACTIVE with CI set to the current producer index. -/
  | start (q : Nat) (hv : HostView)
  /-- STOP (R378): HIF_Q_CMD STOP moves the queue to STOPPING, and unstarted descriptors are dropped. -/
  | stop (q : Nat)
  /-- DOORBELL_POLL (R380): Every HIF_POLL_PERIOD the device issues a read of the doorbell summary. -/
  | doorbellPoll
  /-- SUMMARY_READ_RETURN (R380): A summary read returns and the device reads each changed group's producer indices. -/
  | summaryReadReturn (hv : HostView)
  /-- GROUP_READ_RETURN (R380): A group of producer indices returns and the device schedules descriptor fetches or sets ERR INDEX. -/
  | groupReadReturn (g : Nat) (hv : HostView)
  /-- DESC_FETCH_RETURN (R381): A descriptor fetch returns; the descriptors are queued, or the queue enters ERROR FETCH. -/
  | descFetchReturn (q : Nat) (hv : HostView)
  /-- HOST_READ_RETURN (R395): A device read of host memory returns data or an error, which sets HOST_DMA_ERR. -/
  | hostReadReturn (k : Nat) (hv : HostView)
  /-- CQ_HEAD_READ (R392): While a descriptor waits for ring room, the device re-reads the completion-ring head at most once per poll period. -/
  | cqHeadRead (n : Nat) (hv : HostView)
  /-- FR_HEAD_READ (R394): While the fault ring is full, the device re-reads its head at most once per poll period. -/
  | frHeadRead (hv : HostView)
  /-- COAL_TIMER (R393): COAL_TIME expires after the oldest unsignalled record and the ring's MSI-X vector is signalled. -/
  | coalTimer (n : Nat)
  /-- CQ_CTRL_WRITE (R390): A write to HIF_CQ_CTRL_n enables a ring and sets i to 0, or is refused while the ring holds reservations. -/
  | cqCtrlWrite (n : Nat) (v : W32)
  /-- FR_CTRL_WRITE (R394): A write of EN to HIF_FR_CTRL enables the fault ring and sets j to 0. -/
  | frCtrlWrite (v : W32)
  /-- HOST_LINK_DOWN (R398): The PCI Express link goes down; polling stops, queues and rings are disabled and unsent records are dropped. -/
  | hostLinkDown
  /-- HOST_LINK_TRAIN (R370): The host link trains or retrains and HIF_STATUS reports its rate and width. -/
  | hostLinkTrain (gen : Nat) (width : Nat) (flit : Bool)
  /-- BAR2_READ (R373): A host read through BAR2 reaches the package address space. -/
  | bar2Read (off : Nat) (req : HostReq)
  /-- BAR2_WRITE (R373): A host write through BAR2 is applied as a home write, or is dropped where refused. -/
  | bar2Write (off : Nat) (bytes : List Byte) (hv : HostView)
  /-- EVENT_CLEAR (R515): A W1C write clears event bits, unless an event sets them in the same cycle. -/
  | eventClear (blk : EvBlk) (mask : W32) (arriving : W32)
  /-- REG_WRITE_OTHER (R508): A write to a register with no behaviour of its own is applied under the access rules, or refused. -/
  | regWriteOther (off : Nat) (bytes : List Byte) (enabled : Bool) (hv : HostView)
  /-- NOP_DESC (R383): A NOP descriptor starts and completes. -/
  | nopDesc (q : Nat)
  /-- COPY (R386): A COPY descriptor moves LENGTH bytes and may increment a token counter. -/
  | copy (q : Nat)
  /-- ENGINE_LOAD (R387): ENGINE_LOAD writes the instruction store of a STOPPED engine. -/
  | engineLoad (q : Nat)
  /-- ENGINE_RESET (R387): ENGINE_RESET moves each FAULTED engine in the mask to STOPPED. -/
  | engineReset (q : Nat)
  /-- ENGINE_START (R387): ENGINE_START starts every named STOPPED or FAULTED engine at PC in one engine cycle. -/
  | engineStart (q : Nat)
  /-- PHASE_HINT (R388): PHASE_HINT arms a power phase hint. -/
  | phaseHint (q : Nat)
  /-- SEQ_BIND (R209): SEQ_BIND reads a sequence entry into a free slot after checks. -/
  | seqBind (q : Nat)
  /-- SEQ_UNBIND (R209): SEQ_UNBIND optionally releases the page frames, writes the entry back and frees the slot. -/
  | seqUnbind (q : Nat)
  /-- SEQ_PATCH (R209): SEQ_PATCH copies parameters, stops or resumes a bound sequence and writes it back. -/
  | seqPatch (q : Nat)
  /-- DECODE_STEP (R213): DECODE_STEP takes its slots, allocates frames, reserves ring room, writes the manifest and starts the engines. -/
  | decodeStep (q : Nat)
  /-- DECODE_ENGINES_DONE (R216): Every engine of a decode step has stopped; the device journals under REPRO or updates the entries and writes the token records. -/
  | decodeEnginesDone (k : Nat)
  /-- JRNL_ACK_TIMEOUT (R235): No STREAM_ACK arrives within SHF_JRNL_TMO and the step or flush completes TARGET_TIMEOUT. -/
  | jrnlAckTimeout (k : Nat)
  /-- KV_POOL (R210): KV_POOL pushes frames onto the free-page pool, initialises it or empties it. -/
  | kvPool (q : Nat)
  /-- JRNL_FLUSH (R237): JRNL_FLUSH sends journal records to storage as stream writes. -/
  | jrnlFlush (q : Nat)
  /-- CKT_SETUP (R345): CKT_SETUP reserves slots and arms a circuit entry. -/
  | cktSetup (q : Nat)
  /-- CKT_TEARDOWN (R346): CKT_TEARDOWN frees a circuit entry and its slots. -/
  | cktTeardown (q : Nat)
  /-- MC_WRITE (R349): MC_WRITE sends multicast WRITE_REQ packets to a group. -/
  | mcWrite (q : Nat)
  /-- RMT_WRITE (R355): RMT_WRITE writes local HBM bytes to a fabric address. -/
  | rmtWrite (q : Nat)
  /-- RMT_READ (R355): RMT_READ reads a fabric address into local HBM. -/
  | rmtRead (q : Nat)
  /-- RMT_ATOMIC (R355): RMT_ATOMIC performs one remote atomic and stores the old value. -/
  | rmtAtomic (q : Nat)
  /-- CAL_WRITE (R481): CAL_WRITE reads and checks a store image, then erases and programs the calibration store. -/
  | calWrite (q : Nat)
  /-- CAL_WRITE_DONE (R481): The flash programming of a CAL_WRITE ends and its read-back is checked. -/
  | calWriteDone (flashOk : Bool)
  /-- BEAT_BOUNDARY (R45): A beat boundary passes and the beat number increases by one. -/
  | beatBoundary (clocks : List Nat)
  /-- BEAT_MASTER_SET (R52): A write of MASTER 1 makes the chip beat master, starting or keeping its count. -/
  | beatMasterSet (v : W32)
  /-- BEAT_MASTER_CLEAR (R52): A write of MASTER 0 moves the master to HOLDOVER. -/
  | beatMasterClear (v : W32)
  /-- BEAT_RESYNC (R54): RESYNC steps the count to the upstream, or restarts it on the master, and cancels armed events. -/
  | beatResync (v : W32)
  /-- ACQUIRE_END (R52): 64 beats after ACQUIRING began, the chip becomes LOCKED or returns to UNSYNCED. -/
  | acquireEnd (phase : W16)
  /-- UPSTREAM_TIMEOUT (R48): The upstream has sent no valid marker for one beat, so the chip sends HOPS 15 or changes upstream. -/
  | upstreamTimeout
  /-- HOLDOVER_ENTER (R53): No valid marker has arrived for 64 beats and a LOCKED chip enters HOLDOVER. -/
  | holdoverEnter
  /-- CIRCUIT_REFUSE (R53): HOLDOVER reaches 4,096 beats and new circuits are refused. -/
  | circuitRefuse
  /-- CIRCUIT_RELEASE (R53): HOLDOVER reaches 16,384 beats and every circuit through the chip is released. -/
  | circuitRelease
  /-- PTP_SYNC_RX (R56): An IEEE 1588 message reaches the master, which disciplines its beat. -/
  | ptpSyncRx (x : PtpSync)
  /-- PTP_LOSS (R56): No Sync message has arrived for 2 s and the master free-runs. -/
  | ptpLoss
  /-- DESC_NOT_BEFORE (R57): A descriptor held by NOT_BEFORE_BEAT becomes eligible at its beat. -/
  | descNotBefore (q : Nat)
  /-- BEAT_WAIT_RELEASE (R148): A tiller waiting in sy.wait reaches its beat and continues. -/
  | beatWaitRelease (e : Nat)
  /-- CIRCUIT_ACTIVATION (R343): At ACT_BEAT an ARMED circuit entry becomes ACTIVE or BROKEN. -/
  | circuitActivation (n : Nat)
  /-- ROUTE_BANK_SWITCH (R324): At the switch beat the other routing bank becomes current and the old one starts to drain. -/
  | routeBankSwitch
  /-- SHEAF_CAL_WINDOW (R227): A touch-up window opens at a beat boundary on which no sh.grain holds or awaits the sheaf. -/
  | sheafCalWindow (d : Nat)
  /-- PHASE_HINT_START (R438): A hinted phase reaches its start beat and may become the governing phase. -/
  | phaseHintStart (k : Nat)
  /-- PHASE_HINT_END (R437): A hint ends unreplaced and its phase's learned means are updated. -/
  | phaseHintEnd (k : Nat) (means : List Nat)
  /-- PRE_RAMP_START (R439): At the lead beat before a hinted phase, the die's power starts to ramp with ballast. -/
  | preRampStart (k : Nat)
  /-- LEASE_EXPIRY (R414): The lease's expiry beat passes and the chip goes quiet. -/
  | leaseExpiry
  /-- RECLAIM_DEADLINE (R423): The reclaim deadline passes during DRAIN and CUTOFF begins. -/
  | reclaimDeadline
  /-- TELEMETRY_WINDOW (R494): At each beat that is a multiple of 64, the window closes and the congestion map and telemetry are written. -/
  | telemetryWindow
  /-- NOP (R129): The control core dispatches nop. -/
  | nop (e : Nat)
  /-- S_LI (R129): s.li loads a 64-bit immediate. -/
  | sLi (e : Nat)
  /-- S_ADDI (R129): s.addi adds a sign-extended immediate. -/
  | sAddi (e : Nat)
  /-- S_ADD (R129): s.add adds two registers. -/
  | sAdd (e : Nat)
  /-- S_SUB (R129): s.sub subtracts two registers. -/
  | sSub (e : Nat)
  /-- S_MUL (R129): s.mul multiplies two registers and keeps the low 64 bits. -/
  | sMul (e : Nat)
  /-- S_AND (R129): s.and computes a bitwise AND. -/
  | sAnd (e : Nat)
  /-- S_OR (R129): s.or computes a bitwise OR. -/
  | sOr (e : Nat)
  /-- S_XOR (R129): s.xor computes a bitwise XOR. -/
  | sXor (e : Nat)
  /-- S_SHL (R129): s.shl shifts left logically by a register. -/
  | sShl (e : Nat)
  /-- S_SHR (R129): s.shr shifts right logically by a register. -/
  | sShr (e : Nat)
  /-- S_SRA (R129): s.sra shifts right arithmetically by a register. -/
  | sSra (e : Nat)
  /-- S_MIN (R129): s.min takes the signed minimum. -/
  | sMin (e : Nat)
  /-- S_MINU (R129): s.minu takes the unsigned minimum. -/
  | sMinu (e : Nat)
  /-- S_MAX (R129): s.max takes the signed maximum. -/
  | sMax (e : Nat)
  /-- S_MAXU (R129): s.maxu takes the unsigned maximum. -/
  | sMaxu (e : Nat)
  /-- S_ANDI (R129): s.andi ANDs a register with a sign-extended immediate. -/
  | sAndi (e : Nat)
  /-- S_SHLI (R129): s.shli shifts left by an immediate. -/
  | sShli (e : Nat)
  /-- S_SHRI (R129): s.shri shifts right by an immediate. -/
  | sShri (e : Nat)
  /-- S_LD (R131): s.ld reads 8 bytes of the own engine window once no pending destination footprint covers them. -/
  | sLd (x : TileRead)
  /-- S_ST (R131): s.st writes 8 bytes of the own engine window once no pending footprint covers them. -/
  | sSt (e : Nat)
  /-- BR (R130): br branches relative when its guard holds. -/
  | br (e : Nat)
  /-- BR_LINK (R129): br.link saves the return index and branches. -/
  | brLink (e : Nat)
  /-- BR_REG (R132): br.reg branches to an index held in a register. -/
  | brReg (e : Nat)
  /-- BR_DEC (R130): br.dec decrements a register and branches when the guard holds and the result is not zero. -/
  | brDec (e : Nat)
  /-- P_EQ (R129): p.eq sets a predicate from an equality test. -/
  | pEq (e : Nat)
  /-- P_NE (R129): p.ne sets a predicate from an inequality test. -/
  | pNe (e : Nat)
  /-- P_LT (R130): p.lt sets a predicate from a signed less-than test. -/
  | pLt (e : Nat)
  /-- P_LTU (R130): p.ltu sets a predicate from an unsigned less-than test. -/
  | pLtu (e : Nat)
  /-- P_GE (R130): p.ge sets a predicate from a signed greater-or-equal test. -/
  | pGe (e : Nat)
  /-- P_GEU (R130): p.geu sets a predicate from an unsigned greater-or-equal test. -/
  | pGeu (e : Nat)
  /-- P_EQI (R129): p.eqi compares a register with an immediate for equality. -/
  | pEqi (e : Nat)
  /-- P_LTI (R129): p.lti compares a register with an immediate, signed. -/
  | pLti (e : Nat)
  /-- P_LTUI (R129): p.ltui compares a register with an immediate, unsigned. -/
  | pLtui (e : Nat)
  /-- P_AND (R129): p.and combines two predicates with AND. -/
  | pAnd (e : Nat)
  /-- P_OR (R129): p.or combines two predicates with OR. -/
  | pOr (e : Nat)
  /-- P_XOR (R129): p.xor combines two predicates with XOR. -/
  | pXor (e : Nat)
  /-- P_NOT (R129): p.not inverts a predicate. -/
  | pNot (e : Nat)
  /-- S_RDCTR (R129): s.rdctr reads a performance counter. -/
  | sRdctr (e : Nat)
  /-- S_BEAT (R129): s.beat reads BEAT_NOW. -/
  | sBeat (e : Nat)
  /-- S_ENG (R129): s.eng reads the own logical engine number. -/
  | sEng (e : Nat)
  /-- S_CHIP (R129): s.chip reads FAB_CHIP_NUM. -/
  | sChip (e : Nat)
  /-- S_RDTOK (R129): s.rdtok reads an own token counter. -/
  | sRdtok (e : Nat)
  /-- SY_END (R63): sy.end ends dispatch, and the tiller stops once its queues drain. -/
  | syEnd (e : Nat)
  /-- HD_SET (R134): hd.set writes a whole slab handle from two registers, and VALID is evaluated. -/
  | hdSet (e : Nat)
  /-- HD_BASE (R135): hd.base copies a handle with BASE moved by a signed offset. -/
  | hdBase (e : Nat)
  /-- HD_SHAPE (R135): hd.shape copies a handle with new ROWS and COLS. -/
  | hdShape (e : Nat)
  /-- HD_RD (R134): hd.rd reads half of a handle into a register. -/
  | hdRd (e : Nat)
  /-- HD_CLR (R134): hd.clr clears a handle. -/
  | hdClr (e : Nat)
  /-- MV_LOAD (R136): mv.load is dispatched to move a memory image into a slab. -/
  | mvLoad (e : Nat)
  /-- MV_STORE (R136): mv.store is dispatched to move a slab to a memory image. -/
  | mvStore (e : Nat)
  /-- MV_TLOAD (R141): mv.tload is dispatched to load a row-major array transposed into a slab. -/
  | mvTload (e : Nat)
  /-- MV_COPY (R141): mv.copy is dispatched to copy one slab to another. -/
  | mvCopy (e : Nat)
  /-- MV_TCOPY (R141): mv.tcopy is dispatched to copy a slab transposed. -/
  | mvTcopy (e : Nat)
  /-- MV_GATHER (R140): mv.gather is dispatched to fetch indexed HBM rows through the gather engines. -/
  | mvGather (e : Nat)
  /-- MV_SCATTER (R140): mv.scatter is dispatched to write slab rows to indexed HBM rows. -/
  | mvScatter (e : Nat)
  /-- MV_CVT (R142): mv.cvt is dispatched to convert a slab's format on the movement engine. -/
  | mvCvt (e : Nat)
  /-- FX_PUT (R144): fx.put is dispatched to write a slab to a fabric address. -/
  | fxPut (e : Nat)
  /-- FX_GET (R145): fx.get is dispatched to read a fabric address into a slab. -/
  | fxGet (e : Nat)
  /-- FX_ATOM (R143): fx.atom is dispatched to perform one remote atomic. -/
  | fxAtom (e : Nat)
  /-- SY_INC (R146): sy.inc queues a deferred increment of any engine's token counter. -/
  | syInc (e : Nat)
  /-- SY_INC_APPLY (R146): Once the earlier writes are visible, a deferred increment takes effect at its target. -/
  | syIncApply (e : Nat)
  /-- SY_TSET (R147): sy.tset writes an own token counter. -/
  | syTset (e : Nat)
  /-- SY_TWAIT (R148): sy.twait stalls dispatch until a token counter reaches a value. -/
  | syTwait (e : Nat)
  /-- SY_WAIT (R148): sy.wait stalls dispatch until a beat. -/
  | syWait (e : Nat)
  /-- SY_BAR (R149): sy.bar increments the counters of the masked engines and then waits on the own counter. -/
  | syBar (e : Nat)
  /-- SY_DRAIN (R150): sy.drain stalls dispatch until the named queues complete. -/
  | syDrain (e : Nat)
  /-- SY_COMMIT (R408): sy.commit is dispatched to close a step epoch under step commit. -/
  | syCommit (e : Nat)
  /-- HN_PHASE (R152): hn.phase arms a power phase hint. -/
  | hnPhase (e : Nat)
  /-- MM_FULL (R87): mm.full is dispatched to the array with 512-column groups. -/
  | mmFull (e : Nat)
  /-- MM_HALF (R89): mm.half is dispatched with two independent groups. -/
  | mmHalf (e : Nat)
  /-- MM_QUARTER (R530): mm.quarter is dispatched with up to four independent groups. -/
  | mmQuarter (e : Nat)
  /-- MM_THIN (R90): mm.thin is dispatched for up to 16 masked rows. -/
  | mmThin (e : Nat)
  /-- MM_FULL_T (R91): mm.full.t is dispatched with B read transposed. -/
  | mmFullT (e : Nat)
  /-- MM_OP32 (R93): mm.op32 is dispatched to the FP32 outer-product engine. -/
  | mmOp32 (e : Nat)
  /-- VX_ADD (R169): vx.add is dispatched for an elementwise add. -/
  | vxAdd (e : Nat)
  /-- VX_SUB (R169): vx.sub is dispatched for an elementwise subtract. -/
  | vxSub (e : Nat)
  /-- VX_MUL (R169): vx.mul is dispatched for an elementwise multiply. -/
  | vxMul (e : Nat)
  /-- VX_FMA (R169): vx.fma is dispatched for a fused multiply-add. -/
  | vxFma (e : Nat)
  /-- VX_MAX (R169): vx.max is dispatched for an elementwise maximum. -/
  | vxMax (e : Nat)
  /-- VX_MIN (R169): vx.min is dispatched for an elementwise minimum. -/
  | vxMin (e : Nat)
  /-- VX_ABS (R169): vx.abs is dispatched for an absolute value. -/
  | vxAbs (e : Nat)
  /-- VX_RCP (R169): vx.rcp is dispatched for a correctly rounded reciprocal. -/
  | vxRcp (e : Nat)
  /-- VX_CVT (R167): vx.cvt is dispatched for a format conversion, scaled destinations included. -/
  | vxCvt (e : Nat)
  /-- VX_RSUM (R186): vx.rsum is dispatched for row sums in the fixed order. -/
  | vxRsum (e : Nat)
  /-- VX_RMAX (R170): vx.rmax is dispatched for row maxima. -/
  | vxRmax (e : Nat)
  /-- VX_NANC (R170): vx.nanc is dispatched to count NaNs per row. -/
  | vxNanc (e : Nat)
  /-- VX_POPC (R170): vx.popc is dispatched to count set bits per BIN1 row. -/
  | vxPopc (e : Nat)
  /-- VX_HAMM (R171): vx.hamm is dispatched for Hamming distances between grains. -/
  | vxHamm (e : Nat)
  /-- VX_TOPK (R172): vx.topk is dispatched for the k best column indices per row. -/
  | vxTopk (e : Nat)
  /-- VX_SAMP (R187): vx.samp is dispatched to sample one token per row. -/
  | vxSamp (e : Nat)
  /-- VX_OPT (R174): vx.opt is dispatched for a fused optimizer step. -/
  | vxOpt (e : Nat)
  /-- TB_LOAD (R190): tb.load is dispatched to load and check a function slot image. -/
  | tbLoad (e : Nat)
  /-- TB_FWD (R191): tb.fwd is dispatched to evaluate a forward table. -/
  | tbFwd (e : Nat)
  /-- TB_DER (R176): tb.der is dispatched to evaluate a derivative table, with an optional gradient multiply. -/
  | tbDer (e : Nat)
  /-- GG_SUM (R177): gg.sum is dispatched for a fixed-order sum of listed buffers. -/
  | ggSum (e : Nat)
  /-- SH_GRAIN (R178): sh.grain is dispatched to form grains on the own die's sheaf. -/
  | shGrain (e : Nat)
  /-- INSTR_ISSUE (R70): A queued instruction at the head of its queue has its operands, token condition and read claim met and issues. -/
  | instrIssue (e : Nat) (x : IssueAt)
  /-- INSTR_COMPLETE (R71): An issued instruction completes, frees its footprints and applies its TOK increment. -/
  | instrComplete (e : Nat) (k : Nat) (err : Option Nat)
  /-- GRAIN_GROUP_DONE (R180): A granted group of grain rows returns from the sheaf and is written to the destination slab. -/
  | grainGroupDone (e : Nat) (k : Nat)
  /-- ARB_DECISION (R285): In an arbitration cycle an arbiter grants one transfer unit by weighted round robin. -/
  | arbDecision (kind : Nat) (inst : Nat) (ready : List Nat)
  /-- ARB_WEIGHT_WRITE (R287): A write to the arbiter weights applies from the next decision, or is refused for weight 0. -/
  | arbWeightWrite (kind : Nat) (g : Nat) (v : W32)
  /-- HBM_READ_RETURN (R272): A home memory-side die returns read data, with uncorrectable errors handled by the outcome table. -/
  | hbmReadReturn (e : Nat) (k : Nat) (corrected : List Nat) (failed : List Nat)
  /-- HBM_WRITE_ACK (R42): The home memory-side die invalidates die-cache copies and acknowledges a write. -/
  | hbmWriteAck (e : Nat) (k : Nat)
  /-- FILL (R267): A die cache's FILL reaches a home, which serves it or first back-invalidates a full directory set. -/
  | fill (d : Nat) (addr : Nat) (x : FillCheck)
  /-- FILL_DATA (R266): FILL_DATA reaches a die cache, which installs both lines of the sector. -/
  | fillData (d : Nat) (addr : Nat)
  /-- EVICT (R266): EVICT reaches a home, which clears the die's HOLDERS bit. -/
  | evict (d : Nat) (addr : Nat)
  /-- INV (R268): INV reaches a die cache, which drops the line and answers INV_ACK. -/
  | inv (d : Nat) (addr : Nat)
  /-- INV_ACK (R267): INV_ACK reaches a home and may release a held write or FILL. -/
  | invAck (d : Nat) (addr : Nat)
  /-- INV_STACK (R269): INV_STACK reaches a die cache, which drops every line of the stack. -/
  | invStack (d : Nat) (j : Nat)
  /-- D2D_BLOCK_RX (R271): A block crossing a die boundary arrives and is checked, and a CRC mismatch makes the sender resend it. -/
  | d2dBlockRx (n : Nat) (crcOk : Bool)
  /-- D2D_RETRAIN_END (R271): A die interface retrain ends; traffic resumes, or the site or link is lost under R15. -/
  | d2dRetrainEnd (n : Nat) (spares : List Nat)
  /-- PATROL_SCRUB (R274): Patrol scrub reads a sector and writes back corrected data. -/
  | patrolScrub (addr : Nat) (corrected : List Nat) (failed : List Nat)
  /-- MEM_PLACE_WRITE (R38): A write to MEM_PLACE_n starts a drain to UNASSIGNED, sets a new class or is refused with ERR. -/
  | memPlaceWrite (n : Nat) (v : W32)
  /-- PLACE_DRAIN_DONE (R38): A region written UNASSIGNED has drained and been invalidated, and PENDING clears. -/
  | placeDrainDone (n : Nat)
  /-- RETIRE (R275): RETIRE copies a 4 KiB unit to a pool page and redirects it. -/
  | retire
  /-- RETIRE_DISCARD (R275): RETIRE_DISCARD retires a unit without copying. -/
  | retireDiscard
  /-- SOFT_PPR (R278): SOFT_PPR replaces a DRAM row with its bank's spare row. -/
  | softPpr
  /-- HARD_PPR (R279): HARD_PPR fuses a hard spare row on a stack in MAINT. -/
  | hardPpr
  /-- REPAIR_DONE (R281): A repair command ends; BUSY clears and RESULT is written. -/
  | repairDone
  /-- MEM_MAINT_WRITE (R279): Setting a MEM_MAINT bit puts a stack in maintenance, and clearing it starts retraining. -/
  | memMaintWrite (v : W32)
  /-- STACK_TRAIN_DONE (R279): A stack's HBM training after maintenance ends and it leaves MAINT. -/
  | stackTrainDone (j : Nat) (ok : Bool)
  /-- T1500_GO (R279): GO in MEM_T1500_CTRL shifts data through a stack's IEEE 1500 test port. -/
  | t1500Go (v : W32)
  /-- T1500_DONE (R279): An IEEE 1500 shift ends, BUSY clears and the captured bits are held. -/
  | t1500Done (captured : W64)
  /-- SHF_CTRL_WRITE (R228): A write of SHF_CTRL EN turns a sheaf OFF, or lets it start warming. -/
  | shfCtrlWrite (v : W32)
  /-- FULL_CAL (R228): FULL_CAL requests a full calibration of the named sheaves. -/
  | fullCal (mask : Nat)
  /-- PROGRAM (R222): PROGRAM reads and checks a matrix image for the named sheaves and programs it. -/
  | program (mask : Nat)
  /-- SHEAF_WARM_END (R225): Warming ends with the rings locked and CALIBRATING, or retries or goes OFF. -/
  | sheafWarmEnd (d : Nat) (ok : Bool)
  /-- SHEAF_CAL_END (R225): A full calibration ends in READY with a new epoch, or retries or goes OFF. -/
  | sheafCalEnd (d : Nat) (ok : Bool) (colsV : Nat) (colsU : Nat)
  /-- SHEAF_WINDOW_END (R225): A touch-up or program window ends in READY with a new epoch, or in CALIBRATING. -/
  | sheafWindowEnd (d : Nat) (ok : Bool)
  /-- SHEAF_FORCED_WINDOW (R227): 19.9 ms after the last calibration a window is forced and granted sh.grain instructions complete SHEAF_UNLOCKED. -/
  | sheafForcedWindow (d : Nat)
  /-- SHEAF_LOCK_LOST (R225): A glume ring unlocks or a mesh monitor leaves its range and the sheaf becomes UNLOCKED. -/
  | sheafLockLost (d : Nat)
  /-- SHEAF_RELOCK_END (R225): The relock sweep ends in CALIBRATING or OFF. -/
  | sheafRelockEnd (d : Nat) (ok : Bool)
  /-- PHOTONIC_RATE_SAMPLE (R253): Every 10 µs each photonic die estimates its temperature rate, and a sheaf above 3 K/ms loses lock. -/
  | photonicRateSample (z : Nat) (rate : Int)
  /-- RING_SWEEP_END (R242): A ring sweep ends with a resonance found, a retry or FAILED. -/
  | ringSweepEnd (r : RingId) (found : Bool)
  /-- RING_CAPTURE_END (R242): A ring capture ends in VERIFY or back to SWEEP. -/
  | ringCaptureEnd (r : RingId) (err : Int)
  /-- RING_VERIFY_END (R242): Pilot detection ends in LOCKED, a mislock or SWEEP. -/
  | ringVerifyEnd (r : RingId) (pilot : Option Nat) (margin : Nat)
  /-- RING_PILOT_CHECK (R242): The 10 ms pilot re-check of a LOCKED ring may find a mislock. -/
  | ringPilotCheck (r : RingId) (pilot : Option Nat)
  /-- RING_UNLOCK (R242): A LOCKED ring's error exceeds ±12 GHz for 20 µs or its heater hits a limit, and it becomes UNLOCKED. -/
  | ringUnlock (r : RingId)
  /-- LASER_BIAS_TICK (R247): Once per millisecond each laser's bias loop adjusts the bias toward OPT_RX_TARGET. -/
  | laserBiasTick (n : Nat) (k : Nat) (reports : List Nat)
  /-- BANK_SWAP_START (R248): The calibration window of a worn bank arrives and the spare bank is swapped in. -/
  | bankSwapStart (n : Nat)
  /-- BANK_SWAP_DONE (R248): A bank swap ends, the worn bank is RETIRED and its ports retrain. -/
  | bankSwapDone (n : Nat)
  /-- FORCED_SWAP (R249): A laser at 100 % bias with low power for 10 ms forces an immediate swap, or NO_SPARE_BANK. -/
  | forcedSwap (n : Nat)
  /-- OPT_SWAP (R248): The SWAP command of OPT_CMD opens a bank's swap window. -/
  | optSwap (n : Nat)
  /-- TEST (R251): The TEST command of OPT_CMD starts a margin test on a port in hold. -/
  | test (p : Nat)
  /-- RECOVERY (R251): A port exceeds its retry limit in a millisecond, or FEC fails, and a recovery margin test starts with the port down. -/
  | recovery (p : Nat)
  /-- MARGIN_PASS_END (R250): A margin-test pass ends and the test finishes in a result or moves to its next step. -/
  | marginPassEnd (p : Nat) (tx : List Nat) (rx : List Nat)
  /-- OPT_SLEW_WRITE (R254): A write to OPT_SLEW_LIMIT lowers the slew limit, or is refused with SLEW_ERR. -/
  | optSlewWrite (v : W32)
  /-- FLIT_TX (R304): At each flit time a port direction sends the first ready class with credit, or an idle flit. -/
  | flitTx (p : Nat) (lane : Nat) (x : FlitTime)
  /-- FLIT_RX (R298): A flit arrives and is checked for CRC and sequence, with its ACK, NAK, credits and beat marker applied. -/
  | flitRx (p : Nat) (lane : Nat) (f : Flit) (x : FlitCheck)
  /-- NAK_TIMER (R298): The expected flit has not arrived in time after a NAK and NAK is sent again. -/
  | nakTimer (p : Nat) (lane : Nat)
  /-- LINK_SILENCE_TIMEOUT (R300): A lane in use has had no good-CRC flit for 2 µs and the port goes down. -/
  | linkSilenceTimeout (p : Nat)
  /-- LINK_STALL_TIMEOUT (R300): An outstanding data flit has not arrived good for 100 µs and the port goes down. -/
  | linkStallTimeout (p : Nat)
  /-- TRAIN_END (R305): Port training ends in IDENT or back to DOWN, with lane numbers checked and delay measured. -/
  | trainEnd (p : Nat) (lanes : List Nat) (delay : W16) (good : Bool)
  /-- IDENT_END (R305): The peer exchange ends in SELF, UP or HOLD with a new peer recorded. -/
  | identEnd (p : Nat)
  /-- RELEASE (R306): RELEASE moves a port from HOLD to UP if the generation matches and a margin test has passed. -/
  | release (p : Nat) (gen : Nat)
  /-- HOLD (R305): The HOLD command puts an UP port in HOLD. -/
  | hold (p : Nat)
  /-- RETRAIN (R305): RETRAIN takes a port down for training. -/
  | retrain (p : Nat)
  /-- PEER_SILENT (R410): An UP port has carried only HOPS 15 markers for 64 beats while LOCKED and the silent peer is reported. -/
  | peerSilent (p : Nat)
  /-- BYPASS_TO_PASS (R308): FAB_BYP_CMD with STATE 0 moves the masked switches to pass. -/
  | bypassToPass (mask : Nat)
  /-- BYPASS_TO_BYPASS (R308): FAB_BYP_CMD with STATE 1 moves the masked switches to bypass. -/
  | bypassToBypass (mask : Nat)
  /-- BYP_EN_WRITE (R308): A write to FAB_BYP_EN enables or disables switches, and disabling a switch not at rest in pass is refused. -/
  | bypEnWrite (v : W32)
  /-- BYP_DONE (R308): A bypass switch finishes moving. -/
  | bypDone (k : Nat)
  /-- PACKET_FORWARD (R317): A packet for another chip is checked for slice, fence and age, routed and queued on an output port. -/
  | packetForward (p : Nat) (v : Nat) (pkt : Packet)
  /-- VC6_PACKET (R321): A management packet on VC6 is consumed by the receiving management controller. -/
  | vc6Packet (p : Nat)
  /-- CMAP_SAMPLE (R330): Every 64 ns the device samples every port's VC occupancies. -/
  | cmapSample
  /-- ARM (R324): ARM checks the other routing bank and arms a switch at FAB_RT_SWITCH_BEAT. -/
  | arm
  /-- DISARM (R324): DISARM cancels an armed routing bank switch. -/
  | disarm
  /-- DRAIN_DONE (R324): The old routing bank's drain of FAB_RT_DRAIN beats ends. -/
  | drainDone
  /-- RANK_INV (R314): FAB_RANK_INV invalidates one cached rank entry, or all of them. -/
  | rankInv (v : W32)
  /-- MC_INV (R331): FAB_MC_INV invalidates one cached replication entry, or all of them. -/
  | mcInv (v : W32)
  /-- RANK_TABLE_WRITE (R314): A write to FAB_RANK_BASE or FAB_RANK_COUNT is accepted only in slice 0 and empties the rank cache. -/
  | rankTableWrite (off : Nat) (wide : Bool) (v : W64)
  /-- FAB_CHIP_NUM_WRITE (R336): A write of the chip number is refused for an invalid FIELD or while the slice is not 0. -/
  | fabChipNumWrite (v : W32)
  /-- FAB_SLICE_WRITE (R203): A write to FAB_SLICE assigns or clears the slice and REPRO, or is refused. -/
  | fabSliceWrite (v : W32)
  /-- FAB_SEED_SLICE_WRITE (R514): A write to FAB_SEED_SLICE is accepted only while the slice is 0. -/
  | fabSeedSliceWrite (v : W32)
  /-- READ_REQ (R356): A READ_REQ for this chip passes the target checks and is served from the home stack. -/
  | readReq (src : Option Nat) (pkt : Packet)
  /-- WRITE_REQ (R356): A WRITE_REQ for this chip, multicast included, is checked and applied at home, and acknowledged. -/
  | writeReq (src : Option Nat) (pkt : Packet)
  /-- ATOMIC_REQ (R359): An ATOMIC_REQ is checked and performed indivisibly at the home memory-side die. -/
  | atomicReq (src : Option Nat) (pkt : Packet)
  /-- MIRROR_WRITE (R366): A MIRROR_WRITE is checked against the MIR permission and applied. -/
  | mirrorWrite (src : Option Nat) (pkt : Packet)
  /-- READ_RESP (R353): A READ_RESP reaches its source and delivers its data or failure status. -/
  | readResp (src : Option Nat) (pkt : Packet)
  /-- WRITE_ACK (R353): A WRITE_ACK reaches its source and settles a write, a multicast count, a mirror write or a commit record. -/
  | writeAck (src : Option Nat) (pkt : Packet)
  /-- ATOMIC_RESP (R353): An ATOMIC_RESP returns the old value to its source. -/
  | atomicResp (src : Option Nat) (pkt : Packet)
  /-- STREAM_ACK (R302): A STREAM_ACK from storage acknowledges a durable journal record. -/
  | streamAck (p : Nat) (pkt : Packet)
  /-- REMOTE_TIMEOUT (R363): A request has had no response within FAB_RMT_TMO and fails TARGET_TIMEOUT. -/
  | remoteTimeout (tag : Nat)
  /-- FAB_RGN_WRITE (R368): A write to a region entry is applied, or refused with CMD_ERR. -/
  | fabRgnWrite (n : Nat) (w : Nat) (v : W64)
  /-- FAB_MIR_WRITE (R402): A write to a mirror entry sets VALID and starts RESYNC, clears it, or is refused. -/
  | fabMirWrite (n : Nat) (w : Nat) (v : W64)
  /-- FAB_FDOM_WRITE (R401): A management write sets the failure-domain ID unless a mirror entry is VALID. -/
  | fabFdomWrite (path : RegPath) (v : W32)
  /-- REBUILD (R420): The REBUILD command reads the partner's commit record and copies the range back. -/
  | rebuild (n : Nat)
  /-- MIR_RESYNC (R406): The RESYNC command recopies a BROKEN mirror entry to its partner. -/
  | mirResync (n : Nat)
  /-- MIRROR_SEND (R404): A pending mirrored range with no overlapping write outstanding is sent as MIRROR_WRITE. -/
  | mirrorSend (k : Nat)
  /-- ADD (R415): FAB_FENCE_CMD ADD fences a chip, failing its outstanding requests. -/
  | add (path : RegPath) (chip : Nat)
  /-- REMOVE (R415): FAB_FENCE_CMD REMOVE unfences a chip. -/
  | remove (path : RegPath) (chip : Nat)
  /-- CLEAR_ALL (R415): FAB_FENCE_CMD CLEAR_ALL empties the fence list. -/
  | clearAll (path : RegPath)
  /-- LEASE_RENEW (R411): A management write of MGT_LEASE_RENEW_SEQ renews the lease, or is refused. -/
  | leaseRenew (path : RegPath) (sq : W32)
  /-- GO (R422): MGT_RECLAIM_CMD GO starts a reclaim in DRAIN, or is refused. -/
  | go (path : RegPath)
  /-- RECLAIM_DRAIN_END (R423): All snapshot descriptors have their records and every engine has stopped, so FLUSH begins. -/
  | reclaimDrainEnd
  /-- RECLAIM_CUTOFF_END (R423): Every engine is STOPPED and every record written after cut-off, so FLUSH begins. -/
  | reclaimCutoffEnd
  /-- RECLAIM_FLUSH_END (R423): Every mirror write is answered or timed out, so SCRUB begins. -/
  | reclaimFlushEnd
  /-- RECLAIM_SCRUB_END (R423): HBM and tile state are zeroed, the job-boundary self-test is done and CLEAR begins. -/
  | reclaimScrubEnd (tests : List (Nat × List Nat × Bool))
  /-- RECLAIM_CLEAR_END (R424): Slice tables are cleared and the reclaim reaches READY. -/
  | reclaimClearEnd (usec : Nat)
  /-- MEM_SEQ_REG_WRITE (R219): A write to a sequence or pool register is applied, or refused with ERR. -/
  | memSeqRegWrite (off : Nat) (wide : Bool) (v : W64)
  /-- KVP_LOW_WRITE (R219): A write to MEM_KVP_LOW sets the POOL_LOW threshold and may set POOL_LOW. -/
  | kvpLowWrite (v : W32)
  /-- PWR_CLOCK_TICK (R433): Every 1 µs the controller compares die power with the allowed power and steps the clock. -/
  | pwrClockTick (powers : List Nat) (pkg : Nat) (now : List Nat)
  /-- PWR_SHARE_TICK (R436): Every 10 µs the controller sets each compute die's share of the cap. -/
  | pwrShareTick (nonCompute : Nat)
  /-- THERMAL_SAMPLE (R444): Every 10 µs temperatures are read and the throttle limits and HBM throttling are applied. -/
  | thermalSample (readings : List (Nat × Nat × Int)) (hbm : List (Nat × Int)) (models : List (Nat × Int)) (powers : List (Nat × Nat))
  /-- RETIRE_SENSOR (R443): THM_CMD RETIRE confirms a broken sensor's retirement, or is refused. -/
  | retireSensor (z : Nat) (k : Nat)
  /-- SENSOR_SPARE_IN (R443): A zone's spare sensor takes the place of a retired one. -/
  | sensorSpareIn (z : Nat)
  /-- DROOP (R440): The core rail falls PWR_DROOP_MV below its setpoint and the die's clock period doubles. -/
  | droop (d : Nat)
  /-- DROOP_RESTORE (R440): The rail has stayed within 20 mV for 100 ns and the clock is restored. -/
  | droopRestore (d : Nat)
  /-- CAP_WRITE (R435): A write to PWR_CAP changes the package cap, and the dies follow under the slew limit. -/
  | capWrite (v : W32)
  /-- THROTTLE_PERSIST (R445): A compute die has been throttled for each further second and a fault record is written. -/
  | throttlePersist (d : Nat) (mean : Int)
  /-- PACE_PERSIST (R451): The own pace code has been non-zero for 1 s and PACE_PERSIST is set. -/
  | pacePersist
  /-- AGEING_HOUR (R434): A powered hour passes and the die's effective hours and guardband advance. -/
  | ageingHour (d : Nat) (hot : Bool)
  /-- THERMAL_TRIP (R446): A trip-path reading crosses its threshold; THERM_TRIP_N goes low and the package resets. -/
  | thermalTrip (hbm : Bool) (z : Nat)
  /-- TRIP_RELEASE (R447): Every trip reading has stayed below 75 °C for 30 s and THERM_TRIP_N is released. -/
  | tripRelease
  /-- TILE_FAULT (R459): A tile parity or watchdog fault stops the tile and starts its self-test. -/
  | tileFault (e : Nat) (cause : Nat)
  /-- TILE_SELFTEST_DONE (R459): A tile's self-test ends and the tile returns, maps out a column, or is substituted by a spare. -/
  | tileSelftestDone (e : Nat) (cols : List Nat) (other : Bool)
  /-- SPARE_TILE_CHECK_DONE (R459): A spare tile's 1 ms check ends and it enters service for the logical engine. -/
  | spareTileCheckDone (e : Nat) (ok : Bool)
  /-- SRAM_ROW_REPLACE (R461): A tile SRAM row with its second corrected error is replaced by a spare row while the tile is STOPPED. -/
  | sramRowReplace (t : Nat) (bank : Nat) (row : Nat)
  /-- INVENTORY_WRITE (R457): After an inventory change, the record is written to flash at most once every 10 s. -/
  | inventoryWrite (ok : Bool)
  /-- REG_READ (R489): A REG_READ management message reads BAR0 words. -/
  | regRead (msg : MgmtMsg)
  /-- REG_WRITE (R489): A REG_WRITE management message writes BAR0 words, management-only registers included. -/
  | regWrite (msg : MgmtMsg) (hv : HostView)
  /-- DESC_EXEC (R490): A DESC_EXEC message runs a circuit descriptor outside every queue. -/
  | descExec (msg : MgmtMsg)
  /-- REGISTER_SEND (R491): REGISTER is sent every 1 s until acknowledged, and again on each flag change. -/
  | registerSend
  /-- REGISTER_ACK (R491): REGISTER_ACK from the fault manager ends registration resends and releases held fault records. -/
  | registerAck
  /-- FAULT_SEND (R493): Within 1 ms of being written, fault records are sent to the fault manager. -/
  | faultSend
  /-- FAULT_RESEND (R493): Every 10 ms, unacknowledged fault records are resent. -/
  | faultResend
  /-- FAULT_ACK (R493): FAULT_ACK releases the held records up to its FSEQ. -/
  | faultAck (fseq : W32)
  /-- GET_VERSION (R495): The SPDM GET_VERSION request is answered. -/
  | getVersion (msg : MgmtMsg)
  /-- GET_CAPABILITIES (R495): The SPDM GET_CAPABILITIES request is answered. -/
  | getCapabilities (msg : MgmtMsg)
  /-- NEGOTIATE_ALGORITHMS (R496): The SPDM NEGOTIATE_ALGORITHMS request selects SHA-256 and SLH-DSA. -/
  | negotiateAlgorithms (msg : MgmtMsg)
  /-- GET_DIGESTS (R495): The SPDM GET_DIGESTS request is answered. -/
  | getDigests (msg : MgmtMsg)
  /-- GET_CERTIFICATE (R495): The SPDM GET_CERTIFICATE request returns the slot 0 chain. -/
  | getCertificate (msg : MgmtMsg)
  /-- CHALLENGE (R496): The SPDM CHALLENGE request is signed with the attestation key, or refused. -/
  | challenge (msg : MgmtMsg)
  /-- GET_MEASUREMENTS (R496): The SPDM GET_MEASUREMENTS request returns the measurement blocks, optionally signed. -/
  | getMeasurements (msg : MgmtMsg)
  /-- SPDM_UNSUPPORTED (R495): Any other SPDM request receives ERROR UnsupportedRequest. -/
  | spdmUnsupported (msg : MgmtMsg)
  /-- VERIFY (R498): DBG_CMD VERIFY starts a check of the debug unlock token and consumes the nonce. -/
  | verify
  /-- VERIFY_DONE (R498): The token check ends and sets the debug level, or counts a failure and may set LOCKOUT. -/
  | verifyDone
  /-- LOCKOUT_END (R498): The 60 s debug lockout ends. -/
  | lockoutEnd
  /-- RELOCK (R499): DBG_CMD RELOCK drops the debug level to 0. -/
  | relock
  /-- HOLD_SET (R502): DBG_CMD HOLD_SET sets HOLD. -/
  | holdSet
  /-- HOLD_CLR (R502): DBG_CMD HOLD_CLR clears HOLD. -/
  | holdClr
  /-- HALT (R500): T_CTRL HALT stops a tiller's control core and it becomes HALTED. -/
  | halt (e : Nat)
  /-- RESUME (R500): T_CTRL RESUME returns a halted tiller to RUNNING. -/
  | resume (e : Nat)
  /-- STEP (R500): T_CTRL STEP dispatches one instruction and halts again. -/
  | stepOne (e : Nat)
  /-- DBG_TOKEN_WRITE (R498): A debug transaction writes the token buffer. -/
  | dbgTokenWrite (off : Nat) (v : W64)
  /-- DBG_READ (R501): A debug transaction reads a package address or debug control word if the level permits. -/
  | dbgRead (addr : W64)
  /-- DBG_WRITE (R501): A debug transaction writes memory, registers or the architectural state of a halted tiller if the level permits. -/
  | dbgWrite (addr : W64) (v : W64) (hv : HostView)
  /-- UNDEFINED_OPCODE (R125): The control core dispatches a word whose opcode no instruction-set chapter defines, or runs straight past index 16,383, and raises ILLEGAL_ENCODING. -/
  | undefinedOpcode (e : Nat)
  /-- COMPLETION_TIMEOUT (R381): A device read of host memory gets no completion within the PCI Express completion timeout; a descriptor fetch enters ERROR FETCH and a descriptor's source read completes TARGET_TIMEOUT. -/
  | completionTimeout (q : Nat) (k : Option Nat)
  /-- FREF_LOCK (R529): FREF becomes stable and locks while the ROM waits after RESET_N has risen, and the ROM goes on with its start. -/
  | frefLock
  /-- MSIX_TABLE_WRITE (R393): A host write to the BAR4 MSI-X table changes a vector's address, data or mask, and unmasking a vector whose pending bit is set sends its message. -/
  | msixTableWrite (off : Nat) (wide : Bool) (v : W64)
  /-- HIF_FAULT_VEC (R393): The 10 µs hold-off on HIF_FAULT_VEC ends with fault records still unsignalled, and the vector is signalled. -/
  | hifFaultVec
  /-- BAR0_READ (R508): A host read of BAR0 that does not lie within one aligned 8-byte word returns all ones and sets CMD_ERR in HIF_EVENTS. -/
  | bar0Read (off : Nat) (len : Nat)
  /-- DBG_TRST_N (R465): An assertion of DBG_TRST_N resets the debug port's test access logic and leaves the debug level unchanged. -/
  | dbgTrstN
  /-- EXTEST (R499): A SAMPLE/PRELOAD or EXTEST TAP instruction captures or drives the boundary pins at level FULL while RESET_N is low, and is refused otherwise. -/
  | extest (drive : Option (List Bool))
  deriving DecidableEq, Repr

end Sys2Proof
end

