-- ==== Sys2Proof/WellFormed.lean ====
section
/-!
DEFINITION. Well-formed commands: every number that names a queue, a tiller, a die, a port, a ring, a table entry or a bit
of a mask lies in the range the spec gives it, on the larger of the two assembly options.
-/

namespace Sys2Proof

/-- The groups of 64 wires of die-to-die interface `i`, both ways (Table 1-2): compute links 32 and 32, universal sites 16 and 16, sheaf
sites 16 toward the sheaf and 4 from it. -/
def wireGroups (i : Nat) : Nat := if i < 4 then 64 else if i < 20 then 32 else 20
/-- Is every operand of a command within its range? -/
def wellFormed (i : Instr) : Bool :=
  match i with
  | .auxPowerUp => true
  | .auxPowerLoss => true
  | .holdupOkRise => true
  | .holdupLow => true
  | .pwrGoodRise g => decide (g < 7)
  | .pwrGoodFall g => decide (g < 7)
  | .resetNAssert => true
  | .resetNRelease _ _ _ => true
  | .frefLockTimeout => true
  | .lowTempRecheck _ => true
  | .bootGo _ => true
  | .bootVerifyDone => true
  | .bringupStepEnd r => r.wires.all (fun x => decide (x.1 < 24) && decide (x.2.length ≤ wireGroups x.1))
  | .hifSetupLock _ => true
  | .start q _ => decide (q < 1024)
  | .stop q => decide (q < 1024)
  | .doorbellPoll => true
  | .summaryReadReturn _ => true
  | .groupReadReturn g _ => decide (g < 32)
  | .descFetchReturn q _ => decide (q < 1024)
  | .hostReadReturn _ _ => true
  | .cqHeadRead n _ => decide (n < 256)
  | .frHeadRead _ => true
  | .coalTimer n => decide (n < 256)
  | .cqCtrlWrite n _ => decide (n < 256)
  | .frCtrlWrite _ => true
  | .hostLinkDown => true
  | .hostLinkTrain gen width _ => decide (gen < 8) && decide (width < 32)
  | .bar2Read _ _ => true
  | .bar2Write _ _ _ => true
  | .eventClear _ _ _ => true
  | .regWriteOther off _ _ _ => decide (off < 33554432)
  | .nopDesc q => decide (q < 1024)
  | .copy q => decide (q < 1024)
  | .engineLoad q => decide (q < 1024)
  | .engineReset q => decide (q < 1024)
  | .engineStart q => decide (q < 1024)
  | .phaseHint q => decide (q < 1024)
  | .seqBind q => decide (q < 1024)
  | .seqUnbind q => decide (q < 1024)
  | .seqPatch q => decide (q < 1024)
  | .decodeStep q => decide (q < 1024)
  | .decodeEnginesDone _ => true
  | .jrnlAckTimeout _ => true
  | .kvPool q => decide (q < 1024)
  | .jrnlFlush q => decide (q < 1024)
  | .cktSetup q => decide (q < 1024)
  | .cktTeardown q => decide (q < 1024)
  | .mcWrite q => decide (q < 1024)
  | .rmtWrite q => decide (q < 1024)
  | .rmtRead q => decide (q < 1024)
  | .rmtAtomic q => decide (q < 1024)
  | .calWrite q => decide (q < 1024)
  | .calWriteDone _ => true
  | .beatBoundary _ => true
  | .beatMasterSet _ => true
  | .beatMasterClear _ => true
  | .beatResync _ => true
  | .acquireEnd _ => true
  | .upstreamTimeout => true
  | .holdoverEnter => true
  | .circuitRefuse => true
  | .circuitRelease => true
  | .ptpSyncRx _ => true
  | .ptpLoss => true
  | .descNotBefore q => decide (q < 1024)
  | .beatWaitRelease e => decide (e < 64)
  | .circuitActivation n => decide (n < 256)
  | .routeBankSwitch => true
  | .sheafCalWindow d => decide (d < 4)
  | .phaseHintStart _ => true
  | .phaseHintEnd _ _ => true
  | .preRampStart _ => true
  | .leaseExpiry => true
  | .reclaimDeadline => true
  | .telemetryWindow => true
  | .nop e => decide (e < 64)
  | .sLi e => decide (e < 64)
  | .sAddi e => decide (e < 64)
  | .sAdd e => decide (e < 64)
  | .sSub e => decide (e < 64)
  | .sMul e => decide (e < 64)
  | .sAnd e => decide (e < 64)
  | .sOr e => decide (e < 64)
  | .sXor e => decide (e < 64)
  | .sShl e => decide (e < 64)
  | .sShr e => decide (e < 64)
  | .sSra e => decide (e < 64)
  | .sMin e => decide (e < 64)
  | .sMinu e => decide (e < 64)
  | .sMax e => decide (e < 64)
  | .sMaxu e => decide (e < 64)
  | .sAndi e => decide (e < 64)
  | .sShli e => decide (e < 64)
  | .sShri e => decide (e < 64)
  | .sLd x => decide (x.e < 64)
  | .sSt e => decide (e < 64)
  | .br e => decide (e < 64)
  | .brLink e => decide (e < 64)
  | .brReg e => decide (e < 64)
  | .brDec e => decide (e < 64)
  | .pEq e => decide (e < 64)
  | .pNe e => decide (e < 64)
  | .pLt e => decide (e < 64)
  | .pLtu e => decide (e < 64)
  | .pGe e => decide (e < 64)
  | .pGeu e => decide (e < 64)
  | .pEqi e => decide (e < 64)
  | .pLti e => decide (e < 64)
  | .pLtui e => decide (e < 64)
  | .pAnd e => decide (e < 64)
  | .pOr e => decide (e < 64)
  | .pXor e => decide (e < 64)
  | .pNot e => decide (e < 64)
  | .sRdctr e => decide (e < 64)
  | .sBeat e => decide (e < 64)
  | .sEng e => decide (e < 64)
  | .sChip e => decide (e < 64)
  | .sRdtok e => decide (e < 64)
  | .syEnd e => decide (e < 64)
  | .hdSet e => decide (e < 64)
  | .hdBase e => decide (e < 64)
  | .hdShape e => decide (e < 64)
  | .hdRd e => decide (e < 64)
  | .hdClr e => decide (e < 64)
  | .mvLoad e => decide (e < 64)
  | .mvStore e => decide (e < 64)
  | .mvTload e => decide (e < 64)
  | .mvCopy e => decide (e < 64)
  | .mvTcopy e => decide (e < 64)
  | .mvGather e => decide (e < 64)
  | .mvScatter e => decide (e < 64)
  | .mvCvt e => decide (e < 64)
  | .fxPut e => decide (e < 64)
  | .fxGet e => decide (e < 64)
  | .fxAtom e => decide (e < 64)
  | .syInc e => decide (e < 64)
  | .syIncApply e => decide (e < 64)
  | .syTset e => decide (e < 64)
  | .syTwait e => decide (e < 64)
  | .syWait e => decide (e < 64)
  | .syBar e => decide (e < 64)
  | .syDrain e => decide (e < 64)
  | .syCommit e => decide (e < 64)
  | .hnPhase e => decide (e < 64)
  | .mmFull e => decide (e < 64)
  | .mmHalf e => decide (e < 64)
  | .mmQuarter e => decide (e < 64)
  | .mmThin e => decide (e < 64)
  | .mmFullT e => decide (e < 64)
  | .mmOp32 e => decide (e < 64)
  | .vxAdd e => decide (e < 64)
  | .vxSub e => decide (e < 64)
  | .vxMul e => decide (e < 64)
  | .vxFma e => decide (e < 64)
  | .vxMax e => decide (e < 64)
  | .vxMin e => decide (e < 64)
  | .vxAbs e => decide (e < 64)
  | .vxRcp e => decide (e < 64)
  | .vxCvt e => decide (e < 64)
  | .vxRsum e => decide (e < 64)
  | .vxRmax e => decide (e < 64)
  | .vxNanc e => decide (e < 64)
  | .vxPopc e => decide (e < 64)
  | .vxHamm e => decide (e < 64)
  | .vxTopk e => decide (e < 64)
  | .vxSamp e => decide (e < 64)
  | .vxOpt e => decide (e < 64)
  | .tbLoad e => decide (e < 64)
  | .tbFwd e => decide (e < 64)
  | .tbDer e => decide (e < 64)
  | .ggSum e => decide (e < 64)
  | .shGrain e => decide (e < 64)
  | .instrIssue e _ => decide (e < 64)
  | .instrComplete e _ _ => decide (e < 64)
  | .grainGroupDone e _ => decide (e < 64)
  | .arbDecision kind _ _ => decide (kind < 7)
  | .arbWeightWrite kind g _ => decide (kind < 7) && decide (g < 16)
  | .hbmReadReturn e _ _ _ => decide (e < 64)
  | .hbmWriteAck e _ => decide (e < 64)
  | .fill d _ _ => decide (d < 4)
  | .fillData d _ => decide (d < 4)
  | .evict d _ => decide (d < 4)
  | .inv d _ => decide (d < 4)
  | .invAck d _ => decide (d < 4)
  | .invStack d j => decide (d < 4) && decide (j < 10)
  | .d2dBlockRx _ _ => true
  | .d2dRetrainEnd n spares => decide (n < 24) && decide (spares.length ≤ wireGroups n)
  | .patrolScrub _ _ _ => true
  | .memPlaceWrite n _ => decide (n < 1024)
  | .placeDrainDone n => decide (n < 1024)
  | .retire => true
  | .retireDiscard => true
  | .softPpr => true
  | .hardPpr => true
  | .repairDone => true
  | .memMaintWrite _ => true
  | .stackTrainDone j _ => decide (j < 10)
  | .t1500Go _ => true
  | .t1500Done _ => true
  | .shfCtrlWrite _ => true
  | .fullCal mask => decide (mask < 16)
  | .program mask => decide (mask < 16)
  | .sheafWarmEnd d _ => decide (d < 4)
  | .sheafCalEnd d _ _ _ => decide (d < 4)
  | .sheafWindowEnd d _ => decide (d < 4)
  | .sheafForcedWindow d => decide (d < 4)
  | .sheafLockLost d => decide (d < 4)
  | .sheafRelockEnd d _ => decide (d < 4)
  | .photonicRateSample _ _ => true
  | .ringSweepEnd _ _ => true
  | .ringCaptureEnd _ _ => true
  | .ringVerifyEnd _ _ _ => true
  | .ringPilotCheck _ _ => true
  | .ringUnlock _ => true
  | .laserBiasTick n k _ => decide (n < 24) && decide (k < 9)
  | .bankSwapStart n => decide (n < 24)
  | .bankSwapDone n => decide (n < 24)
  | .forcedSwap n => decide (n < 24)
  | .optSwap n => decide (n < 24)
  | .test p => decide (p < 64)
  | .recovery p => decide (p < 64)
  | .marginPassEnd p _ _ => decide (p < 64)
  | .optSlewWrite _ => true
  | .flitTx p lane _ => decide (p < 64) && decide (lane < 8)
  | .flitRx p lane _ _ => decide (p < 64) && decide (lane < 8)
  | .nakTimer p lane => decide (p < 64) && decide (lane < 8)
  | .linkSilenceTimeout p => decide (p < 64)
  | .linkStallTimeout p => decide (p < 64)
  | .trainEnd p _ _ _ => decide (p < 64)
  | .identEnd p => decide (p < 64)
  | .release p gen => decide (p < 64) && decide (gen < 16)
  | .hold p => decide (p < 64)
  | .retrain p => decide (p < 64)
  | .peerSilent p => decide (p < 64)
  | .bypassToPass mask => decide (mask < 4096)
  | .bypassToBypass mask => decide (mask < 4096)
  | .bypEnWrite _ => true
  | .bypDone k => decide (k < 12)
  | .packetForward p v _ => decide (p < 64) && decide (v < 8)
  | .vc6Packet p => decide (p < 64)
  | .cmapSample => true
  | .arm => true
  | .disarm => true
  | .drainDone => true
  | .rankInv _ => true
  | .mcInv _ => true
  | .rankTableWrite _ _ _ => true
  | .fabChipNumWrite _ => true
  | .fabSliceWrite _ => true
  | .fabSeedSliceWrite _ => true
  | .readReq _ _ => true
  | .writeReq _ _ => true
  | .atomicReq _ _ => true
  | .mirrorWrite _ _ => true
  | .readResp _ _ => true
  | .writeAck _ _ => true
  | .atomicResp _ _ => true
  | .streamAck p _ => decide (p < 64)
  | .remoteTimeout tag => decide (tag < 65536)
  | .fabRgnWrite n w _ => decide (n < 64) && decide (w < 4)
  | .fabMirWrite n w _ => decide (n < 64) && decide (w < 8)
  | .fabFdomWrite _ _ => true
  | .rebuild n => decide (n < 64)
  | .mirResync n => decide (n < 64)
  | .mirrorSend _ => true
  | .add _ chip => decide (chip < 65536)
  | .remove _ chip => decide (chip < 65536)
  | .clearAll _ => true
  | .leaseRenew _ _ => true
  | .go _ => true
  | .reclaimDrainEnd => true
  | .reclaimCutoffEnd => true
  | .reclaimFlushEnd => true
  | .reclaimScrubEnd _ => true
  | .reclaimClearEnd _ => true
  | .memSeqRegWrite _ _ _ => true
  | .kvpLowWrite _ => true
  | .pwrClockTick _ _ _ => true
  | .pwrShareTick _ => true
  | .thermalSample _ _ _ _ => true
  | .retireSensor z k => decide (z < 72) && decide (k < 5)
  | .sensorSpareIn z => decide (z < 72)
  | .droop d => decide (d < 4)
  | .droopRestore d => decide (d < 4)
  | .capWrite _ => true
  | .throttlePersist d _ => decide (d < 4)
  | .pacePersist => true
  | .ageingHour d _ => decide (d < 4)
  | .thermalTrip _ _ => true
  | .tripRelease => true
  | .tileFault e cause => decide (e < 64) && decide (cause < 3)
  | .tileSelftestDone e _ _ => decide (e < 64)
  | .spareTileCheckDone e _ => decide (e < 64)
  | .sramRowReplace t bank _ => decide (t < 72) && decide (bank < 48)
  | .inventoryWrite _ => true
  | .regRead _ => true
  | .regWrite _ _ => true
  | .descExec _ => true
  | .registerSend => true
  | .registerAck => true
  | .faultSend => true
  | .faultResend => true
  | .faultAck _ => true
  | .getVersion _ => true
  | .getCapabilities _ => true
  | .negotiateAlgorithms _ => true
  | .getDigests _ => true
  | .getCertificate _ => true
  | .challenge _ => true
  | .getMeasurements _ => true
  | .spdmUnsupported _ => true
  | .verify => true
  | .verifyDone => true
  | .lockoutEnd => true
  | .relock => true
  | .holdSet => true
  | .holdClr => true
  | .halt e => decide (e < 64)
  | .resume e => decide (e < 64)
  | .stepOne e => decide (e < 64)
  | .dbgTokenWrite off _ => decide (off < 7928)
  | .dbgRead _ => true
  | .dbgWrite _ _ _ => true
  | .undefinedOpcode e => decide (e < 64)
  | .completionTimeout q _ => decide (q < 1024)
  | .frefLock => true
  | .msixTableWrite off _ _ => decide (off < 4096)
  | .hifFaultVec => true
  | .bar0Read off _ => decide (off < 33554432)
  | .dbgTrstN => true
  | .extest _ => true

end Sys2Proof
end

