-- ==== Sys2Proof/Decode.lean ====
section
/-!
DEFINITION. The word decoder of the opcode table. The table gives no row of this block any bits: its commands are events and
register operations, not words. The words that the block's own tillers run are decoded in `Machine/Operands.lean`.
-/

namespace Sys2Proof

/-- The command that a word spells by the table's bits: none, since no row has bits. (DESIGN CHOICE, log entry 2) -/
def decodeTableWord (_nbits _w : Nat) : Option Instr := none

end Sys2Proof
end

