-- ==== Sys2Proof/Machine/Crypto.lean ====
section
/-!
DEFINITION. The checks and hashes the block computes: CRC-32 of IEEE 802.3, SHA-256 (FIPS 180-4), HMAC and HKDF over it.
-/

namespace Sys2Proof.Machine

/-! CRC-32, polynomial 0x04C1_1DB7 in its reflected form. -/

/-- One bit of the register. -/
def crcBit (c : W32) : W32 := if c.getLsbD 0 then (c >>> 1) ^^^ 0xEDB88320 else c >>> 1
/-- One byte. -/
def crcByte (c : W32) (b : Byte) : W32 := (List.range 8).foldl (fun c _ => crcBit c) (c ^^^ b.setWidth 32)
/-- CRC-32 of a list of bytes. -/
def crc32 (l : List Byte) : W32 := (l.foldl crcByte 0xFFFFFFFF) ^^^ 0xFFFFFFFF

/-! SHA-256. -/

/-- The first 64 primes. -/
def shaPrimes : List Nat := (List.range 312).filter (fun n => decide (2 ≤ n) && (List.range 16).all (fun d => decide (d < 2 ∨ n ≤ d) || n % d != 0))
/-- The first 32 bits of the fraction of the `k`-th root of `n`: the root of `n` in units of 2⁻³², one bit at a time. -/
def rootBits (k n : Nat) : W32 :=
  BitVec.ofNat 32 ((List.range 40).foldl (fun r i =>
    let t := r + 2 ^ (39 - i)
    if t ^ k ≤ n * 2 ^ (32 * k) then t else r) 0)
/-- The 64 round constants: fractions of the cube roots of the primes. -/
def shaK : List W32 := shaPrimes.map (rootBits 3)
/-- The eight initial words: fractions of the square roots of the first eight. -/
def shaInit : List W32 := (shaPrimes.take 8).map (rootBits 2)

/-- A word of four bytes, most significant first. -/
def beWord (l : List Byte) : W32 := l.foldl (fun a b => (a <<< 8) ||| b.setWidth 32) 0
/-- `n` bytes of `v`, most significant first. -/
def beBytes (n v : Nat) : List Byte := (leBytes n v).reverse
/-- Cuts a list into `n` chunks of `k`. -/
def chunksOf {α : Type} (k : Nat) : Nat → List α → List (List α)
  | 0, _ => []
  | n + 1, l => l.take k :: chunksOf k n (l.drop k)

/-- The message schedule, newest word first. -/
def shaSchedule (m : List W32) : List W32 :=
  ((List.range 48).foldl (fun (w : List W32) _ =>
    let g (i : Nat) : W32 := w.getD (i - 1) 0
    let x := g 15
    let y := g 2
    let s0 := x.rotateRight 7 ^^^ x.rotateRight 18 ^^^ (x >>> 3)
    let s1 := y.rotateRight 17 ^^^ y.rotateRight 19 ^^^ (y >>> 10)
    (g 16 + s0 + g 7 + s1) :: w) m.reverse).reverse

/-- One round. -/
def shaRound (h : List W32) (kw : W32) : List W32 :=
  match h with
  | [a, b, c, d, e, f, g, i] =>
    let s1 := e.rotateRight 6 ^^^ e.rotateRight 11 ^^^ e.rotateRight 25
    let ch := (e &&& f) ^^^ (~~~e &&& g)
    let t1 := i + s1 + ch + kw
    let s0 := a.rotateRight 2 ^^^ a.rotateRight 13 ^^^ a.rotateRight 22
    let mj := (a &&& b) ^^^ (a &&& c) ^^^ (b &&& c)
    [t1 + (s0 + mj), a, b, c, d + t1, e, f, g]
  | l => l

/-- One block of 64 bytes. -/
def shaBlock (h : List W32) (blk : List Byte) : List W32 :=
  let w := shaSchedule ((chunksOf 4 16 blk).map beWord)
  let r := (shaK.zipWith (fun k w => k + w) w).foldl shaRound h
  h.zipWith (fun a b => a + b) r

/-- The message with its padding. -/
def shaPad (l : List Byte) : List Byte :=
  l ++ [0x80] ++ List.replicate ((119 - l.length % 64) % 64) 0 ++ beBytes 8 (8 * l.length)

/-- SHA-256: 32 bytes. -/
def sha256 (l : List Byte) : List Byte :=
  let p := shaPad l
  ((chunksOf 64 (p.length / 64) p).foldl shaBlock shaInit).flatMap (fun w => beBytes 4 w.toNat)

/-- A digest as a number whose byte 0 is its first byte. -/
def digest (l : List Byte) : BitVec 256 := BitVec.ofNat 256 (leNat (sha256 l))

/-- HMAC-SHA-256 (RFC 2104) with a key of at most 64 bytes. -/
def hmac (key msg : List Byte) : List Byte :=
  let k := key ++ List.replicate (64 - key.length) 0
  sha256 (k.map (fun b => b ^^^ 0x5C) ++ sha256 (k.map (fun b => b ^^^ 0x36) ++ msg))

/-- HKDF expand (RFC 5869): `n` blocks of output. -/
def hkdfExpand (prk info : List Byte) (n : Nat) : List Byte :=
  ((List.range n).foldl (fun (t : List Byte × List Byte) i =>
    let b := hmac prk (t.1 ++ info ++ [BitVec.ofNat 8 (i + 1)])
    (b, t.2 ++ b)) ([], [])).2
/-- HKDF-SHA-256: salt, input key, info, `len` bytes of output. (PRESUMED, log entry 120) -/
def hkdf (salt ikm info : List Byte) (len : Nat) : List Byte :=
  (hkdfExpand (hmac salt ikm) info (cdiv len 32)).take len

end Sys2Proof.Machine
end

