-- ==== Sys2Proof/Machine/Flags.lean ====
section
/-!
DEFINITION. The predicate computations of the control core: comparisons and predicate logic (R129, R130).
-/

namespace Sys2Proof.Machine

/-- The comparison of opcodes 0x24 to 0x29: eq, ne, lt, ltu, ge, geu. -/
def compareBy (op : Nat) (a b : W64) : Bool :=
  if op = 0x24 then a == b
  else if op = 0x25 then a != b
  else if op = 0x26 then a.slt b
  else if op = 0x27 then a.ult b
  else if op = 0x28 then !a.slt b
  else !a.ult b

/-- The comparison of opcodes 0x2A to 0x2C with a sign-extended immediate: eqi, lti, ltui. -/
def compareImm (op : Nat) (a imm : W64) : Bool :=
  if op = 0x2A then a == imm else if op = 0x2B then a.slt imm else a.ult imm

/-- Predicate logic of opcodes 0x2D to 0x2F: and, or, xor. -/
def predLogic (op : Nat) (a b : Bool) : Bool :=
  if op = 0x2D then a && b else if op = 0x2E then a || b else a != b

/-- A predicate register read: p0 reads 1 (R61). -/
def predGet (p : BitVec 8) (i : Nat) : Bool := if i = 0 then true else p.getLsbD i
/-- A predicate register written: a write to p0 has no effect (R61, R130). -/
def predSet (p : BitVec 8) (i : Nat) (v : Bool) : BitVec 8 := if i = 0 then p else putBit p i v

end Sys2Proof.Machine
end

