-- ==== Sys2Proof/Config.lean ====
section
/-!
DEFINITION. What the manufacture of one part fixes, and the values the spec leaves open. Every opaque constant
here is unconstrained: no proof can see a value of it.
-/

namespace Sys2Proof.Config

/-- A byte whose contents the spec calls unspecified: byte `a` of the unspecified span number `tag`. -/
opaque freeByte (tag a : Nat) : Byte
/-- The `n`-th free value drawn by a step (a random nonce, a sampled noisy bit, an unstated result). -/
opaque freeWord (n : Nat) : W64
/-- The contents of the calibration flash as manufactured, where nothing was written since (R22).
(DESIGN CHOICE, log entry 15) -/
opaque flashByte (a : Nat) : Byte
/-- A byte of the inventory record after its write number `n`; its format belongs to the device (R457). -/
opaque invByte (n a : Nat) : Byte
/-- The fused serial number (R473). -/
opaque serial : BitVec 128
/-- The fused SHA-256 of the vendor's image key (R471). -/
opaque vendorKeyHash : BitVec 256
/-- The fused SHA-256 of the debug authority's key (R498). -/
opaque debugKeyHash : BitVec 256
/-- The fused minimum security version (R471). -/
opaque minSvn : BitVec 6
/-- The fused device secret (R473). -/
opaque deviceSecret : BitVec 256
/-- SHA-256 of the ROM code and the fuse configuration (R472). -/
opaque romMeasurement : BitVec 256
/-- SLH-DSA-SHA2-128s verification in pure form with an empty context (FIPS 205): public key, message,
signature. -/
opaque slhVerify (pk msg sig : List Byte) : Bool
/-- The public key that FIPS 205 key generation derives from SK.seed, SK.prf and PK.seed (R473). -/
opaque slhPublic (seeds : List Byte) : List Byte
/-- The SLH-DSA-SHA2-128s signature of a message under the key derived from the seeds (R496). -/
opaque slhSign (seeds msg : List Byte) : List Byte
/-- The public key in the leaf certificate of a certificate chain (R473). -/
opaque leafKey (chain : List Byte) : List Byte
/-- The certificate chain of slot 0 in the form in which SPDM carries it, taken from the vendor partition (R495). -/
opaque spdmChain (partition : List Byte) : List Byte
/-- The sizes that CAPABILITIES reports: the transfer size of a message and its largest size (R495). -/
opaque spdmSizes : Nat × Nat
/-- Does a measurement block belong to the trusted computing base of CHALLENGE (R495)? -/
opaque tcbBlock (index : Nat) : Bool
/-- Is version `ver` of calibration section `id` known to the firmware, with length `len` right (R478)? -/
opaque sectionKnown (id ver len : Nat) : Bool
/-- The starting bias of laser `k` of bank `n`, in steps of 0.5 % of its maximum, with a valid section 4
of the calibration store or (`cal` false) from the ROM (R247, R478). -/
opaque startBias (cal : Bool) (n k : Nat) : Nat
/-- The voltage in mV that clock step `step` needs on die `d` before the guardband (R434). -/
opaque stepMillivolt (cal : Bool) (d step : Nat) : Nat
/-- The hard spare rows a bank was built with: stack `j`, bank `b` (R279). -/
opaque hardSpares (j b : Nat) : Nat
/-- The banks of a stack, which the spec does not count (R278, R279). -/
opaque bankCount : Nat
/-- The bank of a stack that holds a 4 KiB unit (R278: the device fixes the place within the stack).
(DESIGN CHOICE, log entry 72) -/
opaque bankOf (unit : Nat) : Nat
/-- The row of its bank that holds a 4 KiB unit (R278). -/
opaque rowOf (unit : Nat) : Nat
/-- The directory set of a stack that holds a line (R266). -/
opaque dirSet (line : Nat) : Nat
/-- The die-cache set of a line (R265). -/
opaque cacheSet (line : Nat) : Nat
/-- Which of the ways that are still free line number `i` of a die-cache set lies in, its lines taken in ascending order: the spec does
not say how ways are chosen (Table 14-4). -/
opaque tagWay (lines : List Nat) (i : Nat) : Nat
/-- A word of the read-only views whose contents are measurements of the sheaf (Table 12-6). -/
opaque sheafView (die epoch off : Nat) : Byte

end Sys2Proof.Config
end

