-- ==== Sys2Proof/Machine/State.lean ====
section
/-!
DEFINITION. The state of the QK-9640: every register, table, queue and unit the spec names, as plain data, and the
state right after the AUX rails have come up. Indexed registers and memories are sparse tables whose
unlisted entries hold their reset value.
-/

namespace Sys2Proof.Machine

/-- Why a step stops. -/
inductive Fault where
  /-- Raised by every command but those of the board while the AUX rails are down with core rails up: the
  spec calls the core domain's state undefined until AUX power returns (R529). Safe: nothing is claimed of it. -/
  | coreUndefined
  deriving DecidableEq, Repr

/-- Why a command has no meaning. -/
inductive Refusal where
  /-- Raised by an arm of `exec` whose command has no meaning yet, with its mnemonic. Safe. -/
  | notModelled (mnemonic : String)
  deriving DecidableEq, Repr

/-- The two assembly options (R3). -/
inductive Asm where
  | m10l6 | m8l8
  deriving DecidableEq, Repr

/-- A fault record (Table 25-5); `detail` holds bytes 32 to 63. -/
structure FaultRec where
  kind   : Byte
  status : Byte
  block  : Byte
  bit    : Byte
  fseq   : W32
  beat   : W64
  chip   : W16
  slice  : BitVec 12
  addr   : W64
  detail : List Byte
  deriving DecidableEq, Repr

/-- What the block drives out at its boundary, in order: writes of host memory, MSI-X messages, messages
of the management transports (destination 0: the answer to a request), flits as their 256 bytes, answers of reads, fault records that are sent
once and not held, telemetry (the values of the core section in the order of Table 25-7, the bytes of each detail section when
they are due), and the reports RAIL_ORDER and LOW_TEMP of the management port. -/
inductive Out where
  | hostWrite (addr : Nat) (bytes : List Byte)
  | msix (vec : Nat) (addr : W64) (data : W32)
  | mgmt (dest : W64) (m : MgmtMsg)
  | flit (port lane : Nat) (image : List Byte)
  | bar (bytes : List Byte)
  | barAbort
  | barUnsupported
  | dbg (v : Option W64)
  | romReport (r : FaultRec)
  | telemetry (dest : W64) (core : List Nat) (detail : List (List Byte))
  | railOrder
  | lowTemp
  deriving DecidableEq, Repr

/-- The byte-addressed memory of the package: HBM and engine windows. An unlisted byte lies in the first span of
`spans` that covers it (`(lo, hi, tag)`, tag 0 zero, any other tag unspecified contents) or is zero. -/
structure Mem where
  cells : Tbl Byte
  spans : List (Nat × Nat × Nat)
  deriving DecidableEq, Repr

/-- The pins, rails and the bypass capacitor (chapters 24, 27; R18 to R20). Switch masks hold bit s for switch s. -/
structure Board where
  aux       : Bool
  holdup    : Bool
  coreUndef : Bool
  resetN    : Bool
  pwrGood   : BitVec 7
  rising    : Bool          -- the rails are being brought up: the last PWR_GOOD edge rose, and not all are high
  railOrder : Bool
  held      : Bool          -- the core domain is held in reset
  kind      : BitVec 2
  romWait   : Bool          -- bring-up waits for temperatures of 0 °C (R448)
  fref      : Bool
  thermTrip : Bool          -- THERM_TRIP_N driven low
  tripCause : W32           -- THM_TRIP_CAUSE
  bypEn     : BitVec 12
  bypState  : BitVec 12     -- 1: bypass
  bypMoving : BitVec 12
  bypTarget : BitVec 12     -- where a moving switch is going
  bypThen   : BitVec 12     -- after a change under way, move on to bypass (R20)
  deriving DecidableEq, Repr

/-- The boot ROM and bring-up (R468 to R475). -/
structure Boot where
  stage     : Nat
  error     : Nat
  attestOk  : Bool
  attempts  : BitVec 7
  len       : BitVec 24
  buf       : Tbl Byte      -- the 8 MiB boot buffer
  meas0     : BitVec 256
  meas1     : BitVec 256
  meas2     : BitVec 256
  keySeeds  : List Byte     -- the 48 bytes of R473
  uncal     : Bool
  sectOk    : Byte
  degraded  : Bool
  deriving DecidableEq, Repr

/-- The calibration flash and the CAL_ registers (R22, R477 to R484). An unlisted byte is as manufactured. `bad` says that the store is
missing or invalid because a CAL_WRITE did not end well; `writing` is the CAL_WRITE in progress: its started descriptor and the
image. -/
structure Flash where
  cells   : Tbl Byte
  bad     : Bool
  rdAddr  : W32
  writing : Option (Nat × List Byte)
  deriving DecidableEq, Repr

/-- A completion ring (R389 to R393). -/
structure Cq where
  base  : W64
  en    : Bool
  log2  : Nat
  vec   : Byte
  count : Byte
  time  : Byte
  i     : W32
  head  : W32
  resv  : Nat
  unsig : Nat
  deriving DecidableEq, Repr

/-- A cached queue table entry (Table 20-3). -/
structure QTab where
  ring   : W64
  hbm    : Bool
  log2   : Nat
  weight : Nat
  privF  : Bool
  privC  : Bool
  hrgn   : W64
  engs   : W64
  lo     : Nat
  hi     : Nat
  deriving DecidableEq, Repr

/-- States of a queue (Table 20-4). -/
inductive QSt where
  | disabled | active | stopping | error
  deriving DecidableEq, Repr

/-- A command queue (R377 to R381, R385). `got` holds fetched descriptors that have not started, oldest first;
`snap` the reclaim snapshot (R423). -/
structure Queue where
  st   : QSt
  err  : BitVec 2
  ci   : W32
  pi   : W32
  fetched : W32
  tab  : QTab
  got  : List (List Byte)
  snap : Option W32
  deriving DecidableEq, Repr

/-- What a started descriptor still waits for. -/
inductive DWait where
  | ready                      -- nothing: its record is due
  | hostRead                   -- the answer of its host-memory read
  | engines                    -- the engines it started
  | decode                     -- its decoding step
  | remote                     -- its packets
  | writes                     -- the homes, which hold some of its writes (R405)
  | journal                    -- its stream writes
  | flash                      -- the programming of the flash
  deriving DecidableEq, Repr

/-- A descriptor that has started and not completed (R385). `q` is none for one run by DESC_EXEC. `codes` are the
status conditions met so far, `told` those of them whose records are written, `engDone` each engine that has stopped with its status
and the beat, `rest` the home writes that it has still to make (`(address, bytes)`). -/
structure Started where
  id      : Nat
  q       : Option Nat
  desc    : List Byte
  wait    : DWait
  result  : W32
  codes   : List Byte
  told    : List Byte
  engLeft : W64
  engDone : List (Nat × Byte × Bool × W64)
  rest    : List (Nat × List Byte)
  deriving DecidableEq, Repr

/-- The host interface (chapter 20). -/
structure Hif where
  en       : Bool
  locked   : Bool
  up       : Bool           -- the PCI Express link is up
  gen      : BitVec 3
  width    : BitVec 5
  flit     : Bool
  poll     : W16
  qtBase   : W64
  dbBase   : W64
  sumBase  : W64
  headBase : W64
  eventVec : Byte
  faultVec : Byte
  bar2Base : W64
  cq       : Tbl Cq
  hrgnBase : Tbl W64
  hrgnSize : Tbl W64
  q        : Tbl Queue
  sums     : Tbl W32
  sumOut   : Nat            -- summary reads that have not returned (R380)
  groupOut : List Nat       -- groups whose indices are being read
  started  : List Started
  nextId   : Nat
  fetchP   : Nat            -- the round robin of descriptor fetches: its pointer (R285, R380)
  fetchU   : Tbl Nat        -- and its used counts
  deriving DecidableEq, Repr

/-- The fault ring (R394) and the numbering of fault records. -/
structure Fring where
  base : W64
  en   : Bool
  log2 : Nat
  j    : W32
  head : W32
  drop : W32
  due  : Bool               -- records written since HIF_FAULT_VEC was last signalled (R393)
  fseq : W32                -- MGT_FSEQ: the number of the next record
  deriving DecidableEq, Repr

/-- An MSI-X vector (R372). -/
structure Vec where
  addr    : W64
  data    : W32
  mask    : Bool
  pending : Bool
  deriving DecidableEq, Repr

/-- A received beat marker (Table 3-1). -/
structure Marker where
  lo     : BitVec 5
  period : BitVec 3
  phase  : W16
  hops   : BitVec 4
  pace   : BitVec 4
  deriving DecidableEq, Repr

/-- States of the beat (Table 3-2), with their codes in BEAT_STATUS. -/
inductive BeatSt where
  | unsynced | acquiring | locked | holdover | conflict | master
  deriving DecidableEq, Repr

/-- What a port knows of its neighbour's beat: the last marker, whether it came in this beat, the full number
of BEAT_FULL (R49, R297) and how many beats the port has sent no valid marker. -/
structure PortBeat where
  marker : Option Marker
  fresh  : Bool
  full   : W64
  parts  : BitVec 4         -- the parts of BEAT_FULL received since the port came up
  silent : Nat
  pace   : BitVec 4         -- largest PACE since the last boundary (R450)
  deriving DecidableEq, Repr

/-- The beat (chapter 3). -/
structure Beat where
  ctrlMaster : Bool
  ctrlPeriod : BitVec 3
  ptpEn      : Bool
  upFixed    : Bool
  upPort     : BitVec 6
  st         : BeatSt
  period     : BitVec 3
  hops       : BitVec 4
  upstream   : BitVec 6
  upValid    : Bool         -- the upstream has not fallen silent (R47)
  seen       : Bool         -- some port has received a valid marker in this beat
  unseen     : Nat          -- whole beats since a valid marker arrived on any port (R52)
  ptpLocked  : Bool
  now        : W64
  start      : W64
  epochPtp   : W64
  offset     : W32
  holdLen    : W32
  late       : W32
  cancel     : W32
  delay      : Tbl W16
  ports      : Tbl PortBeat
  phase      : W16          -- sub-beat phase, in units of 0.4 ns, at the last command that told it (R44)
  acqLen     : Nat          -- whole beats spent in ACQUIRING (R52)
  ptpErr     : W64          -- what the master's beat is ahead of the IEEE 1588 timescale, in ns, signed (R56)
  deriving DecidableEq, Repr

/-- A footprint: an interval of bytes of tile SRAM or of the accumulator store (R70). -/
structure Foot where
  acc : Bool
  lo  : Nat
  hi  : Nat
  deriving DecidableEq, Repr

/-- A dispatched instruction with what it captured at dispatch (R70, R128): its place in dispatch order, its index,
its word, the slab descriptors of the handles it names, its scalar registers, its token condition. -/
structure QInstr where
  ord  : Nat
  idx  : BitVec 14
  word : BitVec 128
  hs   : Tbl (BitVec 128)
  rs   : Tbl W64
  tokc : Option (Nat × W32)
  srcs : List Foot
  dsts : List Foot
  taint : List Foot            -- outside writes that met its footprints (R77)
  deriving DecidableEq, Repr

/-- How far an issued instruction has come. -/
inductive XStage where
  | running                    -- computing, or its data on the way
  | moved                      -- its transfer done, completion due
  deriving DecidableEq, Repr

/-- A function slot (R175, R189, R190): the 1,568 words of its image (none listed: zero), and validity. -/
structure FnSlot where
  words   : List W32
  invalid : Bool
  deriving DecidableEq, Repr

/-- An issued instruction (R71). `issuing` says that its last issue cycle has not come; `fn` is the function slot that a tb.fwd or
tb.der evaluates (R72, R175). For sh.grain: `granted` are the groups granted, `rows` the grain rows formed, `odd` the rows
written 0 (Table 8-8), `epoch` the calibration epoch at the first grant, and `lock` says that the sheaf has stayed locked and
calibrated. -/
structure XInstr where
  qu    : EngQueue
  i     : QInstr
  stage : XStage
  issuing : Bool
  claim : Nat
  fn    : FnSlot
  granted : Nat
  rows  : Nat
  odd   : Nat
  epoch : W32
  lock  : Bool
  deriving DecidableEq, Repr

/-- Run states of a tiller (Table 4-2). -/
inductive RunSt where
  | stopped | running | halted | faulted | quiet
  deriving DecidableEq, Repr

/-- A raised exception (R153 to R155): code, index and opcode of the instruction, queue number (4 the control core),
the address for ADDRESS and DATA, its place in dispatch order, the beat. -/
structure Exc where
  code : Nat
  idx  : BitVec 14
  op   : Byte
  qn   : Nat
  addr : W64
  ord  : Nat
  beat : W64
  deriving DecidableEq, Repr

/-- A deferred increment (R146): counter, target engine, and the dispatch order it stands at. -/
structure Inc where
  tok    : Nat
  target : Nat
  ord    : Nat
  deriving DecidableEq, Repr

/-- A tiller (chapter 4): the architectural state of Table 4-1, its queues, units and run state, and its debug
registers (Table 25-11). Instructions leave a queue for `exec` when they issue. -/
structure Engine where
  sregs   : Tbl W64
  preds   : BitVec 8
  handles : Tbl (BitVec 128)
  toks    : Tbl W32
  pc      : BitVec 14
  past    : Bool               -- execution ran straight past index 16,383 (R62)
  istore  : Tbl (BitVec 128)
  ctrs    : Tbl (BitVec 48)
  st      : RunSt
  ending  : Bool               -- sy.end dispatched
  ord     : Nat                -- dispatch order number of the next instruction
  qmm     : List QInstr
  qvx     : List QInstr
  qmv     : List QInstr
  qsf     : List QInstr
  exec    : List XInstr
  incs    : List Inc
  bar     : Option W64         -- increments a sy.bar in progress has still to queue (R149)
  exc     : Option Exc         -- exception being reported
  slots   : Tbl FnSlot
  owner   : Option Nat         -- the started descriptor that started it
  cutBy   : Byte               -- status that QUIET ends with, or 0
  faultBy : Byte               -- DATA_UNCORRECTABLE after a tile fault, or 0 (R459)
  bps     : Tbl W64
  wps     : Tbl W64
  asel    : W64
  cause   : BitVec 5           -- T_STATE [21:17]
  skip    : Bool               -- the next dispatch is not matched again (R500)
  single  : Bool               -- halt after the next dispatch (STEP)
  deriving DecidableEq, Repr

/-- A placement entry MEM_PLACE_n (Table 2-5). -/
structure Place where
  cls     : BitVec 2
  die     : BitVec 2
  stack   : BitVec 4
  nc      : Bool
  err     : Bool
  pending : Bool
  deriving DecidableEq, Repr

/-- An HBM stack and its memory-side die (R272 to R281). `ue` lists the units recorded for retirement, `ce` the
tracked counts of corrected errors, oldest first, `soft` the banks that carry a soft repair, `hard` the hard
spare rows used per bank. -/
structure Stack where
  maint    : Bool
  lost     : Bool
  training : Bool
  pool     : W16
  hppUsed  : Tbl Nat
  ceCount  : W32
  ueCount  : W32
  retired  : W32
  ue       : List Nat
  ce       : List (Nat × Nat)
  soft     : List Nat
  throttle : Bool
  deriving DecidableEq, Repr

/-- The memory system (chapters 2, 14). `bad` lists the uncorrectable 8-byte words of HBM, ascending. -/
structure MemSys where
  place      : Tbl Place
  ctrl       : W32
  repairAddr : W64
  busy       : Bool
  result     : BitVec 3
  rstack     : BitVec 4
  pend       : BitVec 3         -- outcome of the command that is running
  maint      : W32
  crc        : W32
  stackTab     : Tbl Stack
  bad        : List Nat
  parked     : List (Nat × Nat) -- uncorrectable words, with their stack, of regions written UNASSIGNED (R272)
  drains     : Tbl (List Nat)   -- the stacks that a region written UNASSIGNED held, while PENDING (R38, R279)
  t1500Ctrl  : W32
  t1500Data  : W64
  t1500Busy  : Bool
  resend     : Tbl Nat          -- consecutive failed sends per interface (R271)
  retrain    : List Nat         -- interfaces retraining
  sitesLost  : List Nat         -- interfaces lost (R15)
  deriving DecidableEq, Repr

/-- One held request of a home: a FILL of die `die` that waits for room in its directory set. -/
structure HeldFill where
  die  : Nat
  addr : Nat
  deriving DecidableEq, Repr

/-- Die caches and directories (R265 to R270). `lines d` are the lines die `d` holds, least recently used first; `dir j`
the entries (line, HOLDERS) of stack j, least recently filled first; `acks j` the (line, die) INV_ACKs awaited. -/
structure Coh where
  lines : Tbl (List Nat)
  ctrs  : Tbl W64               -- key 6·d + counter
  dir   : Tbl (List (Nat × BitVec 4))
  acks  : Tbl (List (Nat × Nat))
  sent  : List (Nat × Nat)      -- (die, sector) FILL_DATA under way
  failed : List (Nat × Nat)     -- (die, sector) fills that found an uncorrectable word, the read that missed still to fail (R272)
  invs  : List (Nat × Nat)      -- (die, line) INV under way
  held  : Tbl (List HeldFill)
  stackInv : Tbl (BitVec 4)     -- dies whose INV_STACK acknowledgement is awaited
  deriving DecidableEq, Repr

/-- What waits at an arbiter for a requester: how many requests are parked (kinds 4 and 5 keep theirs in the port or the
tiller), the age of the oldest, and whether that one has been flagged (R288, R289). -/
structure Req where
  r    : Nat
  n    : Nat
  age  : Nat
  told : Bool
  deriving DecidableEq, Repr

/-- One arbiter instance (R285): pointer, used counts, pending counts with ages. -/
structure Arb where
  p    : Nat
  used : Tbl Nat
  reqs : List Req
  deriving DecidableEq, Repr

/-- The arbiters (chapter 15): weights by 128·kind + requester, thresholds, flags, last records and counts by kind,
instances by 1024·kind + number. -/
structure Arbs where
  w      : Tbl (BitVec 4)
  th     : Tbl W16
  starve : Tbl (BitVec 128)
  last   : Tbl W64
  count  : Tbl W32
  inst   : Tbl Arb
  saved  : Tbl Nat               -- eightieths of a cycle that a throttled stack's pseudo-channel has saved up (R444)
  deriving DecidableEq, Repr

/-- A sequence slot (R209, R211): the entry's number, its 128 bytes, and the step that holds it. -/
structure Slot where
  entry : Nat
  bytes : List Byte
  held  : Option Nat
  deriving DecidableEq, Repr

/-- A decoding step in progress (R213 to R218). -/
structure DecStep where
  id      : Nat                 -- its descriptor
  front   : Option (Nat × W32)  -- the queue at whose front, and the CI at which, the descriptor waits for ring room (R214, R385)
  rows    : List Nat            -- slots of the batch rows
  grown   : List Nat            -- slots whose ALLOC it has raised and whose entry is not written back (R212, R213)
  skipped : Nat
  begun   : Bool                -- ring room reserved, manifest written, engines started
  jrnl    : Bool                -- journal writes sent
  codes   : List Byte           -- what makes it fail, once something does
  told    : List Byte           -- those of the codes whose records are written
  deriving DecidableEq, Repr

/-- Sequences and the frame pool (chapter 11). -/
structure Seqs where
  base    : W64
  entries : W32
  kvBase  : W64
  frame   : W32
  frames  : W32
  kvStack : W64
  top     : W32
  low     : W32
  slots   : Tbl (Option Slot)
  steps   : List DecStep
  deriving DecidableEq, Repr

/-- States of a sheaf (Table 12-4), in the order of their codes. -/
inductive SheafSt where
  | off | warming | calibrating | ready | window | unlocked
  deriving DecidableEq, Repr

/-- A sheaf (chapter 12). `image` and `held` are matrix images (none: the identity of R223, or nothing held); `tries` counts
failures of the current step. -/
structure Sheaf where
  st        : SheafSt
  permanent : Bool
  spareV    : Nat
  spareU    : Nat
  epoch     : W32
  image     : Option (List Byte)
  held      : Option (List Byte)
  tries     : Nat
  progNow   : Bool              -- the open window also programs
  since     : W64               -- beat of the last completed calibration, or of the last step of the count after it
  aged      : Nat               -- time from that calibration to the step, in units of 0.4 ns (R54)
  heldWin   : Bool              -- the held image is for a program window, not for a full calibration (Table 12-5)
  heldNext  : Bool              -- it came during the full calibration under way, and is for the next one
  deriving DecidableEq, Repr

/-- A journal record sent and not acknowledged (R235, R237): owner (a started descriptor), USER, POS. -/
structure JrnlOut where
  owner : Nat
  user  : W64
  pos   : W32
  deriving DecidableEq, Repr

/-- The sheaf block (R238). -/
structure Shf where
  en       : BitVec 4
  imageAt  : W64
  unlocks  : W32
  forced   : W32
  jrnlDest : W32
  jrnlTmo  : W16
  sheaves  : Tbl Sheaf
  jout     : List JrnlOut
  deriving DecidableEq, Repr

/-- States of a ring loop (Table 13-2), in the order of their codes. -/
inductive RingSt where
  | idle | sweep | capture | verify | locked | unlocked | failed
  deriving DecidableEq, Repr

/-- A ring loop (R242): state, whether the narrow search is under way, full sweeps without a find, bad checks in a row. -/
structure Ring where
  st     : RingSt
  narrow : Bool
  full   : Nat
  bad    : Nat
  deriving DecidableEq, Repr

/-- A laser bank (R247 to R249): OPT_BANK fields, the bias of each laser in steps of 0.5 %, whether a swap is under way. -/
structure Bank where
  st      : BitVec 2
  group   : Bool
  pend    : Bool
  wear    : BitVec 7
  bias    : Tbl Nat
  swapTo  : Option Nat          -- the worn bank this spare is replacing
  deriving DecidableEq, Repr

/-- The optics of a port (R243 to R252). By rank, `txLane`, `rxLane` hold the logical lanes in use and `txMap`, `rxMap` their channels. -/
structure OptPort where
  mstate : Nat
  fec    : Bool
  txRet  : BitVec 9
  rxRet  : BitVec 9
  margin : Byte
  test   : Option Nat           -- the margin-test step that is running
  txLane : List Nat
  rxLane : List Nat
  txMap  : List Nat
  rxMap  : List Nat
  rx     : Tbl W16              -- OPT_LANE received power per channel
  far    : Tbl Nat              -- power the far end has reported per channel (R246), the 16 bits + 1
  again  : Bool                 -- the test waits for the retrain of its step (R250)
  deriving DecidableEq, Repr

/-- The optics block (R256). Rings are keyed by 1024·port + 16·(0 drop, 1 modulator) + channel, and 65536 + 256·sheaf + ring. -/
structure Opt where
  ctrl     : W32
  rxTarget : W16
  mMin     : Byte
  retryLim : W16
  slew     : BitVec 6
  mislock  : W32
  mismatch : W32
  rings    : Tbl Ring
  banks    : Tbl Bank
  ports    : Tbl OptPort
  deriving DecidableEq, Repr

/-- An outstanding request (R354, R363): its tag, operation, type, target, offset, length, the local places of its bytes in
order (`(address, bytes)`), and for a multicast write the members that acknowledged, all members, those still to settle, the pruned
branches (status and members), the statuses of members whose write failed. -/
structure Outst where
  tag   : Nat
  op    : Nat
  ptype : Nat
  dst   : W16
  off   : Nat
  len   : Nat
  loc   : List (Nat × Nat)
  acks  : Nat
  want  : Nat
  left  : Nat
  cut   : List (Byte × Nat)
  bad   : List Byte
  deriving DecidableEq, Repr

/-- A packet parked at a port-injection arbiter (R288): requester, virtual channel, and for a request the entry that it
will hold. -/
structure Inj where
  r   : Nat
  vc  : Nat
  pkt : Packet
  o   : Option Outst
  deriving DecidableEq, Repr

/-- One lane of a port (R298): go-back-N state of both directions. Beside a sent flit stand the number and the header of its
packet; `rxq` are accepted flits that wait for their turn in the rotation. -/
structure Lane where
  txSeq  : BitVec 10
  unack  : List (Flit × Nat × Packet)
  resend : List (Flit × Nat × Packet)
  rxExp  : BitVec 10
  rxq    : List Flit
  nakDue : Bool
  nakSent : Bool
  echo   : W64                  -- the timestamp of the last training block received
  prbs   : BitVec 31            -- the generator of the fill of the training blocks; 0 until the first is sent
  deriving DecidableEq, Repr

/-- One virtual channel of a port: forwarded packets by input port, local packets that have won their arbiter by requester,
the flits of the packet being sent that are still to go, credits, packets being received, credits to return. -/
structure Vc where
  fwd    : List (Nat × Packet)
  loc    : List (Nat × Packet)
  waited : Nat                  -- forwarded packets sent while the first local one waited (R328)
  rr     : Nat
  cur    : List Flit
  curPkt : Option (Nat × Nat × Packet)  -- the packet being sent: its number, its input port (0x7F local), itself
  cred   : Nat
  rxBuf  : List Byte
  rxLeft : Nat
  arr    : List Packet
  owed   : Nat
  throttled : Bool
  deriving DecidableEq, Repr

/-- States of a port (Table 16-8), in the order of their codes. -/
inductive PortSt where
  | down | train | ident | self | hold | up
  deriving DecidableEq, Repr

/-- A port (chapter 16). -/
structure Port where
  st      : PortSt
  gen     : BitVec 4
  passed  : Bool
  txLanes : BitVec 4
  rxLanes : BitVec 4
  retry   : W32
  peer    : Option PeerId
  parts   : Tbl Nat             -- PEER parts received, each + 1
  lanes   : Tbl Lane
  vcs     : Tbl Vc
  inj     : List Inj            -- parked at the port-injection arbiter, oldest first
  stall   : List Inj            -- offered to a full queue of that arbiter, oldest first (R288)
  rot     : Nat                 -- rank of the next lane in the rotation (R293)
  rxRot   : Nat                 -- the same of the receiver
  msg     : Nat                 -- turn of the management messages and acknowledged lanes
  nextNo  : Nat                 -- number of the next packet sent
  rrReq   : Nat
  rrResp  : Nat
  testFresh : Bool              -- the margin test under way began after the last peer change (R306)
  onHold  : Bool                -- put in HOLD, by a new peer, a HOLD command or a failed margin test, and not released since
  loopIn  : List (Nat × Flit)   -- flits under way from the other port of a switch in bypass (R18), by channel, oldest first
  deriving DecidableEq, Repr

/-- The link block (R310). -/
structure Link where
  drops : W32
  ports : Tbl Port
  deriving DecidableEq, Repr

/-- A routing bank (Table 17-2). -/
structure RBank where
  dir    : W64
  date   : W32
  torus  : Tbl W64
  field  : Tbl W64
  grid   : Tbl W64
  permit : Tbl W32
  deriving DecidableEq, Repr

/-- Routing (chapter 17). -/
structure Route where
  chip    : W16
  slice   : BitVec 12
  repro   : Bool
  seedSlice : BitVec 12
  ctrl    : W32
  thr     : W32
  ageLim  : BitVec 14
  swBeat  : W64
  cur     : Bool
  armed   : Bool
  armAt   : W64                 -- the beat that the armed switch takes effect at
  draining : Bool
  drainLeft : Nat
  drain   : W16
  rankBase : W64
  rankCount : W32
  mcBase  : W64
  ageDrop : W32
  sliceDrop : W32
  routeDrop : W32
  cmapBeat : W64
  resv    : W64
  bankA   : RBank
  bankB   : RBank
  ranks   : Tbl Nat             -- rank cache: rank to entry + 1 (0: not cached)
  groups  : Tbl (List Byte)     -- replication cache
  occ     : Tbl Nat             -- key 8·port + vc: sum of the occupancy samples of the window
  samples : Nat                 -- samples taken in the window
  cmap    : Tbl W64
  deriving DecidableEq, Repr

/-- A circuit entry (Table 18-6). -/
structure Ckt where
  ckt    : BitVec 12
  st     : BitVec 2
  slice  : BitVec 12
  src    : W16
  dst    : W16
  inp    : BitVec 7
  out    : BitVec 7
  slots  : Byte
  stride : BitVec 3
  phase  : BitVec 6
  act    : W64
  deriving DecidableEq, Repr

/-- Circuits (chapter 18). The slot table of a port is read off the entries (`Ckt.lean`). -/
structure Ckts where
  ents : Tbl Ckt
  drop : W32
  deriving DecidableEq, Repr

/-- Who a remote operation belongs to: a descriptor, a fabric instruction, a pending range of the mirror sender, the copy of
a RESYNC, the two parts of a REBUILD, a commit record of sy.commit `ord` of engine `e`, a journal record; or to nothing any more,
where it has been given up with requests still outstanding. -/
inductive Owner where
  | desc (id : Nat)
  | instr (e ord : Nat)
  | range (n num : Nat)
  | resync (n : Nat)
  | rebRecord (n : Nat)
  | rebuild (n : Nat)
  | commit (e ord n : Nat)
  | journal (id : Nat) (user : W64) (pos : W32)
  | nobody
  deriving DecidableEq, Repr

/-- A remote operation in progress: its requester, packet type, target, atomic operands; the runs not yet made into packets
(`(offset, bytes, local package address)`), the bytes made into packets; the packets still to settle, the bytes delivered
or acknowledged DONE, the status codes met and those whose records are written, the failed packets (offset, bytes), the first of them (address, tag), whether a packet timed out; the old
value (for a multicast write the smallest delivered count), the data of a commit record read back. -/
structure RmtOp where
  id    : Nat
  owner : Owner
  r     : Nat
  ptype : Nat
  mcast : Bool
  dst   : W16
  aop   : Nat
  opnd  : W64
  swap  : W64
  todo  : List (Nat × Nat × Nat)
  sent  : Nat
  left  : Nat
  bytes : Nat
  codes : List Byte
  told  : List Byte
  lost  : List (Nat × Nat)
  fail  : Option (W64 × Nat)
  timed : Bool
  old   : W64
  got   : List Byte
  deriving DecidableEq, Repr

/-- Remote operations (chapter 19). -/
structure Rmt where
  tmo   : W16
  timeouts : W32
  late  : W32
  deny  : W32
  rgn   : Tbl (BitVec 256)
  ops   : List RmtOp
  out   : List Outst
  nextOp : Nat
  nextTag : Nat
  loop  : List Packet           -- packets that loop back (R2)
  deriving DecidableEq, Repr

/-- A mirror entry (Table 21-10). -/
structure Mirror where
  valid : Bool
  rank  : Bool
  st    : BitVec 3
  partner : W16
  pfdom : W16
  lbase : Nat
  size  : Nat
  pbase : Nat
  cbase : Nat
  reb   : W64
  extra : BitVec 8              -- bit w: the last write of 8-byte word w had a reserved bit set (R402)
  deriving DecidableEq, Repr

/-- A pending range of the mirror sender (R403, R405): entry, address, the bytes to send, whether it was sent, whether its entry has
left RESYNC and ACTIVE since, so that its end changes no state (Table 21-1). -/
structure MRange where
  num  : Nat
  ent  : Nat
  addr : Nat
  data : List Byte
  sent : Bool
  stale : Bool
  deriving DecidableEq, Repr

/-- A sy.commit in progress (R408): its engine and order, the step, the pending ranges it covers, the entries whose commit
record is awaited, whether the records were sent, and its outcome once decided. -/
structure Commit where
  e     : Nat
  ord   : Nat
  step  : W64
  cover : List Nat
  recs  : List Nat
  sentRecs : Bool
  result : Option Byte
  deriving DecidableEq, Repr

/-- Mirrors (R401 to R408). -/
structure Mirrors where
  fdom      : W16
  committed : W64
  ents      : Tbl Mirror
  ranges    : List MRange
  nextRange : Nat
  commits   : List Commit
  stray     : List (Nat × Nat × Nat) -- entry and bounds of bytes written into a range during its REBUILD, which are unspecified (R420)
  deriving DecidableEq, Repr

/-- The fence list (R415 to R417). `chips` is ascending without repeats. -/
structure Fence where
  chips : List Nat
  drop  : W32
  deriving DecidableEq, Repr

/-- Lease and reclaim (R411 to R424). -/
structure Lease where
  expiry   : W64
  renewBeat : W64
  lastSeq  : W32
  st       : BitVec 2
  len      : W32
  deadline : W64               -- staged MGT_RECLAIM_DEADLINE
  armedD   : W64               -- the deadline that is armed
  phase    : BitVec 3
  cut      : Bool
  time     : W32
  deriving DecidableEq, Repr

/-- A compute die's power state (R433 to R440). Share and allowed power are in mW; an allowed power of 0 stands before the first allocation. -/
structure PwrDie where
  power   : BitVec 10
  allowed : Nat
  step    : BitVec 7
  gated   : Bool
  limiter : BitVec 3
  share   : Nat
  above    : Nat                 -- microseconds above the allowed power at step 12
  droop   : Bool
  hours   : Nat                 -- effective hours
  gbLimit : Nat                 -- highest step left (R434)
  gates   : W32
  droops  : W32
  temp    : Int                 -- T_d in 0.125 °C
  thrott  : Bool
  hist    : List Nat            -- its power in each of the last 100 µs, newest first (R254)
  deriving DecidableEq, Repr

/-- An armed phase hint (R437, R438). -/
structure Hint where
  phase : Nat
  start : W64
  len   : Nat
  on    : Bool
  whole : Bool                  -- it applies for its whole length
  ramp  : BitVec 4              -- bit d: the power of die d is being raised for it (R439)
  deriving DecidableEq, Repr

/-- Power (chapter 22). -/
structure Pwr where
  ctrl     : W32
  cap      : BitVec 12
  pkg      : BitVec 12
  own      : BitVec 4
  followed : BitVec 4
  floor    : BitVec 4
  ports    : W64
  droopMv  : BitVec 7
  phaseNow : Byte
  dies     : Tbl PwrDie
  phases   : Tbl W64
  hints    : List Hint
  unmet    : Nat                -- microseconds above the cap with every die at step 12
  ptold    : Bool               -- PACE_PERSIST told in this episode
  deriving DecidableEq, Repr

/-- What is followed of a sensor to find it broken (R443): its last reading, for how many samples it has lain apart from the others, for how
many it has not changed, and the least and greatest power of its die meanwhile. -/
structure Sensor where
  last : Int
  off  : Nat
  same : Nat
  pmin : Nat
  pmax : Nat
  deriving DecidableEq, Repr

/-- A thermal zone (Table 22-8). -/
structure Zone where
  temp   : Int
  sens   : Tbl Sensor
  active : Nat
  spares : Nat
  broken : BitVec 5
  list   : List Nat             -- sensors in service
  deriving DecidableEq, Repr

/-- Temperature (chapter 22), in steps of 0.125 °C: zones, stacks, and by the key of `dieKey` the temperature of each die and of its
model. -/
structure Thm where
  ctrl  : W32
  zones : Tbl (Option Zone)     -- none: as fitted
  hbm   : Tbl Int
  dies  : Tbl Int
  models : Tbl Int
  low   : List Nat              -- dies below 10 °C, by the key of `dieKey`
  restart : Bool                -- the next start follows a trip (R447)
  deriving DecidableEq, Repr

/-- A physical tile (chapter 23): its inventory and the tests under way. `passes` are the ages in hours of the tests that it passed after
a fault (R460); `onlyArray` says that the test under way found nothing bad but columns of the array. -/
structure Tile where
  failed   : Bool
  colmap   : Bool
  arrayOff : Bool
  worn     : Bool
  passes   : List Nat
  onlyArray : Bool
  testing  : Bool
  checking : Option Nat         -- the logical engine this spare is being checked for
  rowsUsed : Tbl Nat            -- spare rows used per bank
  ueRows   : List Nat           -- 256-byte units of tile SRAM that an uncorrectable error was found in since the last self-test
  hit      : Option W64         -- the beat of its last tile fault (Table 23-4)
  deriving DecidableEq, Repr

/-- What the inventory record in the flash holds (R457): the tiles, the map, the wires, and what stacks, ports, banks, sheaves, zones and
dies have consumed; an unlisted entry is as fitted. -/
structure Record where
  tiles   : Tbl Tile
  map     : Tbl Nat
  wire    : Tbl W32
  stackTab  : Tbl Stack
  ports   : Tbl OptPort
  banks   : Tbl Bank
  sheaves : Tbl Sheaf
  zones   : Tbl (Option Zone)
  dies    : Tbl PwrDie
  deriving DecidableEq, Repr

/-- The seed stock (chapter 23). `saved` is the record in the flash; `map` holds the physical tile + 1 of a logical engine, 0 for an absent one. -/
structure Inv where
  valid  : Bool
  lost   : Bool
  seqn   : W32
  dirty  : Bool
  tiles  : Tbl Tile
  map    : Tbl Nat
  wire   : Tbl W32
  saved  : Record
  deriving DecidableEq, Repr

/-- Management network state (chapter 25): registers, registration, and the queue of fault records, oldest first, with
whether each was sent. -/
structure Mgt where
  ip4     : W32
  ip4cfg  : W32
  fmAddr  : W64
  telAddr : W64
  telDiv  : Byte
  telLeft : Nat
  drop    : W32
  deny    : W32
  allow   : Tbl W64
  acked   : Bool                -- REGISTER_ACK received
  flags   : Byte                -- FLAGS of the last REGISTER sent
  queue   : List (FaultRec × Bool)
  seqn    : W32
  deriving DecidableEq, Repr

/-- The SPDM responder (R495, R496): progress of the exchange and the transcript. -/
structure Spdm where
  version : Bool
  caps    : Bool
  algs    : Bool
  trans   : List Byte           -- VCA messages
  chal    : List Byte           -- messages since, for CHALLENGE
  meas    : List Byte           -- messages since, for GET_MEASUREMENTS
  deriving DecidableEq, Repr

/-- The debug port (R497 to R505). `check` is the check of a token that is running, with the level it will give, none where the token
fails; `pins` is what EXTEST drives on the boundary pins. -/
structure Dbg where
  level   : BitVec 2
  hold    : Bool
  lockout : Bool
  fails   : BitVec 4
  nonce   : BitVec 128
  token   : Tbl Byte
  check   : Option (Option (BitVec 2))
  pins    : Option (List Bool)
  deriving DecidableEq, Repr

/-- The whole block. `free` numbers the next free value drawn. -/
structure State where
  pending : List Instr
  opt     : Asm
  board   : Board
  boot    : Boot
  flash   : Flash
  hif     : Hif
  ev      : Tbl W32
  fr      : Fring
  msix    : Tbl Vec
  out     : List Out
  beat    : Beat
  engines : Tbl Engine
  mem     : Mem
  ms      : MemSys
  seqs    : Seqs
  coh     : Coh
  arb     : Arbs
  shf     : Shf
  optics  : Opt
  link    : Link
  rt      : Route
  ckt     : Ckts
  rmt     : Rmt
  mir     : Mirrors
  fence   : Fence
  lease   : Lease
  pwr     : Pwr
  thm     : Thm
  inv     : Inv
  mgt     : Mgt
  spdm    : Spdm
  dbg     : Dbg
  free    : Nat
  deriving DecidableEq, Repr

/-- A disabled completion ring (Table 20-11). -/
def Cq.init : Cq := ⟨0, false, 4, 0, 0, 0, 0, 0, 0, 0⟩
/-- An empty queue table entry. -/
def QTab.zero : QTab := ⟨0, false, 0, 0, false, false, 0, 0, 0, 0⟩
/-- A disabled queue. -/
def Queue.init : Queue := ⟨.disabled, 0, 0, 0, 0, .zero, [], none⟩
/-- A masked MSI-X vector, as the rules of PCI Express leave it at reset. (PRESUMED, log entry 20) (PRESUMED, log entry 144) -/
def Vec.init : Vec := ⟨0, 0, true, false⟩
/-- A port from which no marker has come. -/
def PortBeat.init : PortBeat := ⟨none, false, 0, 0, 0, 0⟩
/-- A tiller with all of its state zero (R61), STOPPED. (DESIGN CHOICE, log entry 22) -/
def Engine.zero : Engine :=
  { sregs := [], preds := 0, handles := [], toks := [], pc := 0, past := false, istore := [], ctrs := [], st := .stopped,
    ending := false, ord := 0, qmm := [], qvx := [], qmv := [], qsf := [], exec := [], incs := [],
    bar := none, exc := none, slots := [], owner := none, cutBy := 0, faultBy := 0, bps := [], wps := [], asel := 0,
    cause := 0, skip := false, single := false }
/-- A never-loaded function slot (R175). -/
def FnSlot.zero : FnSlot := ⟨[], false⟩
/-- The reset placement of a populated region: PACKAGE (Table 2-5). -/
def Place.init : Place := ⟨2, 0, 0, false, false, false⟩
/-- A fitted stack that has consumed nothing. -/
def Stack.init : Stack := ⟨false, false, false, 47104, [], 0, 0, 0, [], [], [], false⟩
/-- An arbiter instance with nothing pending. -/
def Arb.init : Arb := ⟨0, [], []⟩
/-- A sheaf at reset (R223, R225). -/
def Sheaf.init : Sheaf := ⟨.off, false, 2, 2, 0, none, none, 0, false, 0, 0, false, false⟩
/-- A ring loop at reset. -/
def Ring.init : Ring := ⟨.idle, true, 0, 0⟩
/-- Bank `n` at reset: the third bank of a die is the spare (Table 13-7). -/
def Bank.init (n : Nat) : Bank := ⟨if n % 3 = 2 then 2 else 1, n % 3 = 1, false, 0, [], none⟩
/-- The optics of a port at reset: lanes 0 to 7 on channels 0 to 7 (R240). -/
def OptPort.init : OptPort := ⟨0, false, 0, 0, 0, none, List.range 8, List.range 8, List.range 8, List.range 8, [], [], false⟩
/-- A lane at reset. -/
def Lane.init : Lane := ⟨0, [], [], 0, [], false, false, 0, 0⟩
/-- The receive buffer of a virtual channel in flits (Table 16-7). -/
def vcRoom (v : Nat) : Nat := if v = 6 then 128 else 1280
/-- A virtual channel at reset, with full credits. -/
def Vc.init (v : Nat) : Vc := ⟨[], [], 0, 0, [], none, vcRoom v, [], 0, [], 0, false⟩
/-- A port at reset: DOWN, no peer recorded (R305). -/
def Port.init : Port := ⟨.down, 0, false, 0, 0, 0, none, [], [], [], [], [], 0, 0, 0, 0, 0, 0, false, false, []⟩
/-- A routing bank of zeros (R315). -/
def RBank.zero : RBank := ⟨0, 0, [], [], [], []⟩
/-- A free circuit entry. -/
def Ckt.free : Ckt := ⟨0, 0, 0, 0, 0, 0, 0, 0, 0, 0, 0⟩
/-- A mirror entry that is OFF. -/
def Mirror.off : Mirror := ⟨false, false, 0, 0, 0, 0, 0, 0, 0, 0, 0⟩
/-- A compute die's power state at reset (Table 22-7): clock step 96. (DESIGN CHOICE, log entry 21) -/
def PwrDie.init : PwrDie := ⟨0, 0, 96, false, 0, 0, 0, false, 0, 112, 0, 0, 0, false, []⟩
/-- A tile of which nothing has been consumed. -/
def Tile.init : Tile := ⟨false, false, false, false, [], false, false, none, [], [], none⟩
/-- The inventory record of a part that has consumed nothing. (DESIGN CHOICE, log entry 19) -/
def Record.factory : Record := ⟨[], [], [], [], [], [], [], [], []⟩
/-- The physical tile + 1 of logical engine `e` when nothing was substituted (R27). -/
def mapInit (e : Nat) : Nat := 18 * (e / 16) + e % 16 + 1

/-- The board after AUX power-up: rails below AUX down, RESET_N low, every enabled switch in bypass (R307, R465).
(DESIGN CHOICE, log entry 17) -/
def Board.init : Board :=
  { aux := true, holdup := false, coreUndef := false, resetN := false, pwrGood := 0, rising := false, railOrder := false,
    held := true, kind := 0,
    romWait := false, fref := false, thermTrip := false, tripCause := 0, bypEn := 0xFFF, bypState := 0xFFF,
    bypMoving := 0, bypTarget := 0, bypThen := 0 }
/-- The boot block at reset: STAGE 1 (Table 24-10). -/
def Boot.init : Boot :=
  { stage := 1, error := 0, attestOk := false, attempts := 0, len := 0, buf := [], meas0 := 0, meas1 := 0, meas2 := 0,
    keySeeds := [], uncal := false, sectOk := 0, degraded := false }
/-- The host interface at reset (Table 20-10). -/
def Hif.init : Hif :=
  { en := false, locked := false, up := false, gen := 0, width := 0, flit := false, poll := 500, qtBase := 0,
    dbBase := 0, sumBase := 0, headBase := 0, eventVec := 0, faultVec := 0, bar2Base := 0, cq := [], hrgnBase := [],
    hrgnSize := [], q := [], sums := [], sumOut := 0, groupOut := [], started := [], nextId := 0, fetchP := 0, fetchU := [] }
/-- The fault ring at reset. -/
def Fring.init : Fring := ⟨0, false, 0, 0, 0, 0, false, 0⟩
/-- The beat at reset: UNSYNCED from 0, period code 2, HOPS 15 (Tables 3-5 to 3-7). -/
def Beat.init : Beat :=
  { ctrlMaster := false, ctrlPeriod := 2, ptpEn := false, upFixed := false, upPort := 0, st := .unsynced, period := 2,
    hops := 15, upstream := 0, upValid := false, seen := false, unseen := 0, ptpLocked := false, now := 0, start := 0, epochPtp := 0, offset := 0,
    holdLen := 0, late := 0, cancel := 0, delay := [], ports := [],
    phase := 0, acqLen := 0, ptpErr := 0 }
/-- The memory system at reset (Table 14-7). -/
def MemSys.init : MemSys :=
  { place := [], ctrl := 0x403, repairAddr := 0, busy := false, result := 0, rstack := 0, pend := 0, maint := 0, crc := 0,
    stackTab := [], bad := [], parked := [], drains := [], t1500Ctrl := 0, t1500Data := 0, t1500Busy := false, resend := [], retrain := [],
    sitesLost := [] }
/-- The sequence registers at reset (Table 11-6). -/
def Seqs.init : Seqs := ⟨0, 0, 0, 1, 0, 0, 0, 0, [], []⟩
/-- The optics registers at reset (Table 13-6). -/
def Opt.init : Opt := ⟨1, 0xFDA8, 15, 64, 40, 0, 0, [], [], []⟩
/-- The sheaf registers at reset (Table 12-9). -/
def Shf.init : Shf := ⟨0xF, 0, 0, 0, 0, 200, [], []⟩
/-- Routing at reset (Table 17-9). -/
def Route.init : Route :=
  { chip := 0, slice := 0, repro := false, seedSlice := 0, ctrl := 0x41, thr := 0x02800400, ageLim := 15625, swBeat := 0,
    cur := false, armed := false, armAt := 0, draining := false, drainLeft := 0, drain := 4096, rankBase := 0, rankCount := 0,
    mcBase := 0, ageDrop := 0, sliceDrop := 0, routeDrop := 0, cmapBeat := 0, resv := 0x80808080, bankA := .zero,
    bankB := .zero, ranks := [], groups := [], occ := [], samples := 0, cmap := [] }
/-- Remote operations at reset (Table 19-4). -/
def Rmt.init : Rmt := ⟨200, 0, 0, 0, [], [], [], 0, 0, []⟩
/-- Lease and reclaim at reset (Table 21-9). -/
def Lease.init : Lease := ⟨0, 0, 0, 0, 4194304, 0, 0, 0, false, 0⟩
/-- Power at reset (Table 22-6). -/
def Pwr.init : Pwr := ⟨1, 2800, 0, 0, 0, 0, 0, 40, 0, [], [], [], 0, false⟩
/-- Management at reset (Table 25-13). -/
def Mgt.init : Mgt := ⟨0, 16, 0, 0, 64, 64, 0, 0, [], false, 0, [], 0⟩
/-- The debug port at reset. -/
def Dbg.init : Dbg := ⟨0, false, false, 0, 0, [], none, none⟩

/-- The block right after the AUX rails have come up (KIND 0, R465): RESET_N low, every register at its
reset value, memories zero, no command waiting. -/
def State.reset : State :=
  { pending := [], opt := .m10l6, board := .init, boot := .init, flash := ⟨[], false, 0, none⟩, hif := .init, ev := [],
    fr := .init, msix := [], out := [], beat := .init, engines := [], mem := ⟨[], []⟩, ms := .init, seqs := .init,
    coh := ⟨[], [], [], [], [], [], [], [], []⟩, arb := ⟨[], [], [], [], [], [], []⟩, shf := .init, optics := .init,
    link := ⟨0, []⟩, rt := .init, ckt := ⟨[], 0⟩, rmt := .init, mir := ⟨0, 0, [], [], 0, [], []⟩, fence := ⟨[], 0⟩,
    lease := .init, pwr := .init, thm := ⟨0xAA, [], [], [], [], [], false⟩, inv := ⟨true, false, 0, false, [], [], [], .factory⟩,
    mgt := .init, spdm := ⟨false, false, false, [], [], []⟩, dbg := .init, free := 0 }

end Sys2Proof.Machine
end

