-- ==== Sys2Proof/Machine/Ops.lean ====
section
/-!
DEFINITION. The operations every meaning shares: figures of the assembly option, events, interrupts and fault records,
the outputs at the boundary, the address map, placement and memory.
-/

namespace Sys2Proof.Machine

/-- What every command but those of the board answers: its effect, none while the core domain is held in reset (R465 to R467,
R446), and a fault where the AUX rails were lost with core rails up, when the core domain is undefined (R529).
(DEDUCED, log entry 3) (DEDUCED, log entry 12) (DEDUCED, log entry 13) -/
def run (s : State) (f : State → State) : Host.Outcome State Fault Refusal :=
  if s.board.coreUndef then .fault .coreUndefined else .next (if s.board.held then s else f s)

/-- Folds an operation over a list of arguments. -/
def each {α : Type} (l : List α) (s : State) (f : State → α → State) : State := l.foldl f s

/-! Figures of the assembly options (Table 0-1, Table 1-3). -/

/-- HBM stacks fitted. -/
def stacksOf (s : State) : Nat := if s.opt = .m10l6 then 10 else 8
/-- Optical I/O dies fitted. -/
def ioDiesOf (s : State) : Nat := if s.opt = .m10l6 then 6 else 8
/-- Aqoux ports fitted. -/
def portsOf (s : State) : Nat := 8 * ioDiesOf s
/-- Populated 1 GiB regions. -/
def regionsOf (s : State) : Nat := 36 * stacksOf s
/-- The compute die whose sites hold stack `j` (Table 1-3). -/
def stackDie (s : State) (j : Nat) : Nat :=
  if s.opt = .m10l6 then (if j < 4 then j / 2 else if j < 7 then 2 else 3) else j / 2
/-- The compute die whose sites hold I/O die `i` (Table 1-3). -/
def ioDie (s : State) (i : Nat) : Nat :=
  if s.opt = .m10l6 then (if i < 4 then i / 2 else i - 2) else i / 2
/-- The universal site that holds stack `j` (Table 1-3). -/
def stackSite (s : State) (j : Nat) : Nat :=
  if s.opt = .m10l6 then (if j < 4 then 4 * (j / 2) + j % 2 else if j < 7 then 4 + j else 5 + j) else 4 * (j / 2) + j % 2
/-- The universal site that holds I/O die `i` (Table 1-3). -/
def ioSite (s : State) (i : Nat) : Nat :=
  if s.opt = .m10l6 then (if i < 4 then 4 * (i / 2) + 2 + i % 2 else if i = 4 then 11 else 15) else 4 * (i / 2) + 2 + i % 2
/-- The stacks on the sites of compute die `d`, ascending. -/
def dieStacks (s : State) (d : Nat) : List Nat := (List.range (stacksOf s)).filter (fun j => stackDie s j == d)

/-! Outputs. -/

/-- Drives one thing out at the boundary. -/
def emit (s : State) (o : Out) : State := { s with out := s.out ++ [o] }
/-- A write of host memory, which needs the host link. (DEDUCED, log entry 6) -/
def hostWrite (s : State) (a : Nat) (bs : List Byte) : State := if s.hif.up then emit s (.hostWrite a bs) else s
/-- Draws the next free value. (DEDUCED, log entry 14) -/
def drawFree (s : State) : W64 × State := (Config.freeWord s.free, { s with free := s.free + 1 })

/-! Event registers, interrupts and fault records (R393, R394, R492, R493, R515). -/

/-- The key of a block's event register. -/
def evKey : EvBlk → Nat
  | .hif => 0 | .beat => 1 | .mem => 2 | .memArb => 3 | .shf => 4 | .opt => 5 | .link => 6 | .rt => 7 | .ckt => 8
  | .rmt => 9 | .mir => 10 | .mgt => 11 | .mgtNet => 12 | .pwr => 13 | .thm => 14 | .inv => 15 | .cal => 16
  | .dbg => 17 | .seq => 18
/-- The BLOCK code of a block in fault records (Table 25-5). -/
def evBlock : EvBlk → Byte
  | .hif => 0 | .beat => 1 | .mem => 2 | .memArb => 3 | .shf => 4 | .opt => 5 | .link => 6 | .rt => 7 | .ckt => 8
  | .rmt => 9 | .mir => 10 | .mgt => 11 | .mgtNet => 11 | .pwr => 12 | .thm => 13 | .inv => 14 | .cal => 15
  | .dbg => 17 | .seq => 2
/-- The bits an event register has. -/
def evBits : EvBlk → Nat
  | .hif => 5 | .beat => 7 | .mem => 7 | .memArb => 8 | .shf => 18 | .opt => 12 | .link => 7 | .rt => 8 | .ckt => 4
  | .rmt => 4 | .mir => 6 | .mgt => 7 | .mgtNet => 3 | .pwr => 6 | .thm => 7 | .inv => 5 | .cal => 6 | .dbg => 4
  | .seq => 3
/-- An event register. -/
def evGet (s : State) (b : EvBlk) : W32 := tblGet (fun _ => 0) s.ev (evKey b)
/-- Sets an event register to a value. -/
def evPut (s : State) (b : EvBlk) (v : W32) : State := { s with ev := tblSet (fun _ => 0) s.ev (evKey b) v }

/-- Signals an MSI-X vector: a message, or its pending bit while it is masked (R393). (PRESUMED, log entry 144) -/
def signalVec (s : State) (v : Nat) : State :=
  let e := tblGet (fun _ => Vec.init) s.msix v
  if e.mask then { s with msix := tblSet (fun _ => Vec.init) s.msix v { e with pending := true } }
  else if s.hif.up then emit s (.msix v e.addr e.data) else s

/-- The interrupt of a register event: HIF_EVENT_VEC (R393). -/
def interrupt (s : State) : State := signalVec s s.hif.eventVec.toNat

/-- Sets an event bit; the interrupt is raised when it changes from 0 to 1 (R515). -/
def setEvent (s : State) (b : EvBlk) (bit : Nat) : State :=
  if (evGet s b).getLsbD bit then s
  else interrupt (evPut s b (putBit (evGet s b) bit true))

/-- The 64 bytes of a fault record (Table 25-5). -/
def recBytes (r : FaultRec) : List Byte :=
  [r.kind, r.status, r.block, r.bit] ++ leBytes 4 r.fseq.toNat ++ leBytes 8 r.beat.toNat ++ leBytes 2 r.chip.toNat
    ++ leBytes 2 r.slice.toNat ++ leBytes 4 0 ++ leBytes 8 r.addr.toNat ++ r.detail

/-- A detail area: the given bytes, then zeros up to 32. -/
def detail32 (l : List Byte) : List Byte := l.take 32 ++ List.replicate (32 - l.length) 0

/-- A record with the next FSEQ, the beat, the chip and the slice (Table 25-5). -/
def mkRec (s : State) (kind status block bit : Byte) (addr : W64) (d : List Byte) : FaultRec :=
  { kind := kind, status := status, block := block, bit := bit, fseq := s.fr.fseq, beat := s.beat.now, chip := s.rt.chip,
    slice := s.rt.slice, addr := addr, detail := detail32 d }

/-- Uses up one FSEQ. -/
def bumpFseq (s : State) : State := { s with fr := { s.fr with fseq := s.fr.fseq + 1 } }

/-- Is there room in an enabled fault ring (R394)? -/
def ringRoom (s : State) : Bool := s.fr.en && s.hif.up && decide ((s.fr.j - s.fr.head).toNat < 2 ^ s.fr.log2)

/-- Writes a record at the next slot of the fault ring. -/
def ringPut (s : State) (r : FaultRec) : State :=
  let s := hostWrite s (s.fr.base.toNat + 64 * (s.fr.j.toNat % 2 ^ s.fr.log2)) (recBytes r)
  { s with fr := { s.fr with j := s.fr.j + 1, due := true } }

/-- Puts a record in the queue of the management port; the oldest gives way when 4,096 are held (R493).
Says whether one gave way. -/
def mgmtPut (s : State) (r : FaultRec) : Bool × State :=
  if s.mgt.queue.length < 4096 then (false, { s with mgt := { s.mgt with queue := s.mgt.queue ++ [(r, false)] } })
  else (true, { s with mgt := { s.mgt with queue := s.mgt.queue.drop 1 ++ [(r, false)], drop := satInc s.mgt.drop } })

/-- The detail of an EVENT record (Table 25-6). -/
def evDetail (s : State) (b : EvBlk) (idx sub val : Nat) : List Byte :=
  leBytes 4 (evGet s b).toNat ++ leBytes 2 idx ++ leBytes 2 sub ++ leBytes 8 val

/-- Sets FQ_OVERFLOW and writes its record, which goes to the fault ring only (R505). -/
def fqOverflow (s : State) : State :=
  let s := setEvent s .mgtNet 0
  let r := mkRec s 5 0 11 0 0 (evDetail s .mgtNet 0 0 0)
  let s := bumpFseq s
  if ringRoom s then ringPut s r
  else setEvent { s with fr := { s.fr with drop := satInc s.fr.drop } } .hif 2

/-- Counts a record that the fault ring could not take, sets FR_OVERFLOW and writes its record, which goes to the
management port only (R394, R400). (DEDUCED, log entry 95) -/
def frOverflow (s : State) : State :=
  let s := setEvent { s with fr := { s.fr with drop := satInc s.fr.drop } } .hif 2
  let r := mkRec s 5 0 0 2 0 (evDetail s .hif 0 0 0)
  let p := mgmtPut (bumpFseq s) r
  if p.1 then fqOverflow p.2 else p.2

/-- Writes a fault record to the fault ring and to the management port (R492 to R494). -/
def record (s : State) (kind status block bit : Byte) (addr : W64) (d : List Byte) : State :=
  let r := mkRec s kind status block bit addr d
  let s := bumpFseq s
  let room := ringRoom s
  let s := if room then ringPut s r else s
  let p := mgmtPut s r
  let s := if p.1 then fqOverflow p.2 else p.2
  if room then s else frOverflow s

/-- An event of block `b`: its bit is set, and a fault record naming `idx`, `sub`, a value and an address is written,
whatever the bit held before (R515). -/
def event (s : State) (b : EvBlk) (bit : Nat) (idx : Nat := 0) (sub : Nat := 0) (val : Nat := 0)
    (addr : Nat := 0) (status : Byte := 0) : State :=
  let s := setEvent s b bit
  record s 5 status (evBlock b) (BitVec.ofNat 8 bit) (BitVec.ofNat 64 addr) (evDetail s b idx sub val)

/-- An access the address map refuses: an EVENT record of block MEM with BIT 0xFF (R26). -/
def refusedAccess (s : State) (a : Nat) (status : Byte) : State :=
  record s 5 status 2 0xFF (BitVec.ofNat 64 a) (leBytes 4 (evGet s .mem).toNat)

/-- A record of the boot ROM: sent once on the management port and not held (R493). -/
def romRecord (s : State) : State :=
  let r := mkRec s 6 0 18 0xFF 0 [BitVec.ofNat 8 s.boot.error, BitVec.ofNat 8 s.boot.stage]
  emit (bumpFseq s) (.romReport r)

/-- Does the firmware run (R469, R474)? -/
def fwUp (s : State) : Bool := decide (5 ≤ s.boot.stage ∧ s.boot.stage ≤ 13)

/-- What a write of a setup register does: nothing before the firmware runs (R469). -/
def fwOnly (f : State → State) (s : State) : State := if fwUp s then f s else s

/-! Status codes (Table 0-5) and their order (R9). -/

/-- DONE. -/
def stDone : Byte := 0x00
/-- DONE_PARTIAL. -/
def stPartial : Byte := 0x01
/-- DESC_MALFORMED. -/
def stMalformed : Byte := 0x10
/-- LENGTH_EXCEEDS_REGION. -/
def stLength : Byte := 0x11
/-- COUNT_OVERFLOW. -/
def stCount : Byte := 0x12
/-- PROT_DENIED. -/
def stProt : Byte := 0x20
/-- FENCED_TARGET. -/
def stFenced : Byte := 0x21
/-- TARGET_TIMEOUT. -/
def stTimeout : Byte := 0x22
/-- DATA_UNCORRECTABLE. -/
def stData : Byte := 0x30
/-- LINK_LOST. -/
def stLink : Byte := 0x31
/-- MIRROR_LOST. -/
def stMirror : Byte := 0x40
/-- LEASE_EXPIRED. -/
def stLease : Byte := 0x41
/-- RECLAIMED. -/
def stReclaimed : Byte := 0x50
/-- SHEAF_UNLOCKED. -/
def stSheaf : Byte := 0x60

/-- The order in which a completion's single code is chosen (R9). -/
def statusOrder : List Byte :=
  [0x10, 0x11, 0x12, 0x50, 0x41, 0x40, 0x30, 0x31, 0x21, 0x20, 0x22, 0x01, 0x60, 0x00]

/-- The code a completion carries when several conditions apply (R9). -/
def pickStatus (codes : List Byte) : Byte := (statusOrder.find? (fun c => codes.contains c)).getD 0

/-- The conditions of a command that its completion does not report, each in a record of its own (R9): EVENT records with the
code as STATUS and BIT 0xFF. `told` are the conditions whose records another rule has written (R272, R363, R395).
(DEDUCED, log entry 47) -/
def unreported (s : State) (block : Byte) (codes told : List Byte) : State :=
  let rest := statusOrder.filter (fun c => codes.contains c && c != pickStatus codes && c != stDone && !told.contains c)
  each rest s (fun s c => record s 5 c block 0xFF 0 (leBytes 4 (if block = 0 then (evGet s .hif).toNat else 0)))

/-- What the accesses of a command have met: status codes, and those of them whose fault records are written. -/
structure Met where
  codes : List Byte
  told  : List Byte
  deriving DecidableEq, Repr

/-- Nothing has been met. -/
def Met.none : Met := ⟨[], []⟩
/-- What two accesses have met. -/
def Met.and (x y : Met) : Met := ⟨x.codes ++ y.codes, x.told ++ y.told⟩
/-- The code reported for what was met (R9). -/
def Met.status (x : Met) : Byte := pickStatus x.codes
/-- A refusal of the address map, whose record is written (R26). -/
def Met.prot : Met := ⟨[stProt], [stProt]⟩
/-- DATA_UNCORRECTABLE: where an uncorrectable word was found its record is written (R272), where a lost stack was touched there is
none yet (R15). -/
def Met.data (noted : Bool) : Met := ⟨[stData], if noted then [stData] else []⟩

/-! Weighted round robin (R285). -/

/-- The winner among ascending candidates at pointer `p`, and the used counts after a new round where one begins. -/
def wrrPick (weight : Nat → Nat) (p : Nat) (used : Tbl Nat) (cands : List Nat) : Option (Nat × Tbl Nat) :=
  let ok (u : Tbl Nat) : List Nat := cands.filter (fun r => decide (tblGet (fun _ => 0) u r < weight r))
  let u := if (ok used).isEmpty then [] else used
  ((((ok u).filter (fun r => decide (p ≤ r))) ++ ok u).head?).map (fun r => (r, u))
/-- The pointer and the used counts after the grant to winner `w`, of `m` requester numbers. -/
def wrrStep (weight : Nat → Nat) (m : Nat) (w : Nat) (used : Tbl Nat) : Nat × Tbl Nat :=
  let n := tblGet (fun _ => 0) used w + 1
  (if weight w ≤ n then (w + 1) % m else w, tblSet (fun _ => 0) used w n)

/-! Memory: placement, the address map and bytes (chapter 2). -/

/-- The placement entry of region `n`. -/
def placeGet (s : State) (n : Nat) : Place := tblGet (fun _ => Place.init) s.ms.place n
/-- Sets the placement entry of region `n`. -/
def placePut (s : State) (n : Nat) (p : Place) : State :=
  { s with ms := { s.ms with place := tblSet (fun _ => Place.init) s.ms.place n p } }
/-- The stack list of a placement entry (R35). -/
def stackList (s : State) (p : Place) : List Nat :=
  if p.cls = 1 then dieStacks s p.die.toNat
  else if p.cls = 2 then List.range (stacksOf s)
  else if p.cls = 3 then [p.stack.toNat] else []
/-- The stack that holds address `a` (R35). -/
def stackOf (s : State) (a : Nat) : Nat :=
  let n := a / 2 ^ 30
  let l := stackList s (placeGet s n)
  if l.length = 0 then 0 else l.getD ((a % 2 ^ 30 / 4096 + n) % l.length) 0
/-- Stack `j`. -/
def stackGet (s : State) (j : Nat) : Stack := tblGet (fun _ => Stack.init) s.ms.stackTab j
/-- Sets stack `j`. -/
def stackPut (s : State) (j : Nat) (k : Stack) : State :=
  { s with ms := { s.ms with stackTab := tblSet (fun _ => Stack.init) s.ms.stackTab j k } }
/-- Is region `n` populated and assigned (R26)? -/
def regionOk (s : State) (n : Nat) : Bool := decide (n < regionsOf s) && (placeGet s n).cls != 0
/-- Does `[a, a + len)` lie in the populated HBM window (R25)? -/
def hbmPop (s : State) (a len : Nat) : Bool := decide (a < regionsOf s * 2 ^ 30) && decide (a + len ≤ regionsOf s * 2 ^ 30)
/-- Does `[a, a + len)` lie in populated, assigned HBM (R26)? -/
def hbmOk (s : State) (a len : Nat) : Bool :=
  hbmPop s a len &&
    ((List.range ((a + len - 1) / 2 ^ 30 + 1 - a / 2 ^ 30)).all (fun i => regionOk s (a / 2 ^ 30 + i))) && regionOk s (a / 2 ^ 30)

/-- The first address of `[a, a + len)` that is not in populated, assigned HBM: the address that R26 has the record name. -/
def refusedAt (s : State) (a len : Nat) : Nat :=
  let top := min (a + len) (regionsOf s * 2 ^ 30)
  match (List.range (top / 2 ^ 30 + 1 - a / 2 ^ 30)).find? (fun i => !regionOk s (a / 2 ^ 30 + i)) with
  | some i => max a ((a / 2 ^ 30 + i) * 2 ^ 30)
  | none => max a (regionsOf s * 2 ^ 30)

/-- The physical tile of a present logical engine (R27, R29). The spec has the map readable but names no register and no message that
gives it, and the model adds none: it is a part of State, and fault records name the physical tile.
(DESIGN CHOICE, log entry 136) -/
def tileOf (s : State) (e : Nat) : Option Nat :=
  if 64 ≤ e then none else
    let t := tblGet mapInit s.inv.map e
    if t = 0 then none else some (t - 1)
/-- Is logical engine `e` present (R29)? -/
def present (s : State) (e : Nat) : Bool := (tileOf s e).isSome
/-- A tiller. -/
def engGet (s : State) (e : Nat) : Engine := tblGet (fun _ => Engine.zero) s.engines e
/-- Sets a tiller. -/
def engPut (s : State) (e : Nat) (x : Engine) : State :=
  { s with engines := tblSet (fun _ => Engine.zero) s.engines e x }
/-- Changes a tiller. -/
def engMod (s : State) (e : Nat) (f : Engine → Engine) : State := engPut s e (f (engGet s e))

/-- The package address of the window of engine `e` (Table 2-2). -/
def winBase (e : Nat) : Nat := 0x010000000000 + e * 0x02000000
/-- The package address of byte `off` of tile SRAM, or of the accumulator store, of engine `e` (Table 2-3). -/
def storeAddr (e : Nat) (acc : Bool) (off : Nat) : Nat := winBase e + (if acc then 0x1800000 else 0) + off

/-- What a package address names (Table 2-2, Table 2-3). -/
inductive Place2 where
  | hbm
  | window (e : Nat) (acc : Bool) (off : Nat)
  | dieCache (d off : Nat)
  | sheafCtl (d off : Nat)
  | mirror (off : Nat)
  | nothing
  deriving DecidableEq, Repr

/-- The unit that a package address falls in (R25, R26). -/
def decodeAddr (s : State) (a : Nat) : Place2 :=
  if a < 2 ^ 40 then (if regionOk s (a / 2 ^ 30) then .hbm else .nothing)
  else if a < 0x010080000000 then
    let e := (a - 2 ^ 40) / 0x02000000
    let o := a % 0x02000000
    if !present s e then .nothing
    else if o < 0x1800000 then .window e false o
    else if o < 0x1C00000 then .window e true (o - 0x1800000) else .nothing
  else if 0x018000000000 ≤ a ∧ a < 0x018010000000 then
    let d := (a - 0x018000000000) / 0x04000000
    let o := a % 0x04000000
    if o < 0x02000000 then .dieCache d o else .sheafCtl d (o - 0x02000000)
  else if 0x01C000000000 ≤ a ∧ a < 0x01C002000000 then .mirror (a - 0x01C000000000)
  else .nothing

/-- The populated parts of the die-cache control window (Table 14-4). -/
def cacheParts : List (Nat × Nat) := [(0, 48), (0x100000, 0x500000)]
/-- The populated parts of the sheaf control window (Table 12-10). -/
def sheafParts : List (Nat × Nat) := [(0, 33344), (0x10000, 0x14000), (0x14000, 0x18000), (0x18000, 0x18500)]
/-- Where a range of `n` from `o` leaves the part it starts in; none where one part holds it whole. -/
def leavesParts (l : List (Nat × Nat)) (o n : Nat) : Option Nat :=
  match l.find? (fun r => decide (r.1 ≤ o) && decide (o < r.2)) with
  | none => some o
  | some r => if o + n ≤ r.2 then none else some r.2
/-- The first address of a package range that R26 refuses, if it refuses one. (DESIGN CHOICE, log entry 161) -/
def mapRefusal (s : State) (a len : Nat) : Option Nat :=
  if len = 0 then none
  else
    match decodeAddr s a with
    | .hbm => if hbmOk s a len then none else some (refusedAt s a len)
    | .window _ acc off => (leavesParts [(0, if acc then 0x400000 else 0x1800000)] off len).map (fun x => a + (x - off))
    | .dieCache _ o => (leavesParts cacheParts o len).map (fun x => a + (x - o))
    | .sheafCtl _ o => (leavesParts sheafParts o len).map (fun x => a + (x - o))
    | .mirror o => (leavesParts [(0, 0x2000000)] o len).map (fun x => a + (x - o))
    | .nothing => some a

/-- The byte an unlisted address reads as: what the newest span over it says, or zero. -/
def spanByte (spans : List (Nat × Nat × Nat)) (a : Nat) : Byte :=
  match spans.find? (fun p => decide (p.1 ≤ a) && decide (a < p.2.1)) with
  | some p => if p.2.2 = 0 then 0 else Config.freeByte p.2.2 a
  | none => 0

/-- Reads one byte of the package memory. (DESIGN CHOICE, log entry 16) -/
def memGet (m : Mem) (a : Nat) : Byte := tblGet (spanByte m.spans) m.cells a
/-- Writes one byte of the package memory. -/
def memSet (m : Mem) (a : Nat) (b : Byte) : Mem := { m with cells := tblSet (spanByte m.spans) m.cells a b }
/-- Reads `n` bytes from `a` up. -/
def memRead (m : Mem) (a : Nat) : Nat → List Byte
  | 0 => []
  | n + 1 => memGet m a :: memRead m (a + 1) n
/-- Writes bytes from `a` up. -/
def memWrite (m : Mem) (a : Nat) : List Byte → Mem
  | [] => m
  | b :: t => memWrite (memSet m a b) (a + 1) t
/-- Gives `[lo, hi)` zeros (tag 0) or unspecified contents (any other tag). -/
def memFill (m : Mem) (lo hi tag : Nat) : Mem :=
  { cells := m.cells.filter (fun e => decide (e.1 < lo) || decide (hi ≤ e.1)),
    spans := (lo, hi, tag) :: m.spans.filter (fun p => decide (p.1 < lo) || decide (hi < p.2.1)) }
/-- The canonical form of the package memory. -/
def Mem.wf (m : Mem) : Bool := tblWf (spanByte m.spans) m.cells

/-- Reads package memory as a little-endian number. -/
def memNat (s : State) (a n : Nat) : Nat := leNat (memRead s.mem a n)
/-- Writes package memory with no further effect. -/
def memPut (s : State) (a : Nat) (bs : List Byte) : State := { s with mem := memWrite s.mem a bs }
/-- Zeros a range of package memory. -/
def memZero (s : State) (lo hi : Nat) : State := { s with mem := memFill s.mem lo hi 0 }
/-- Makes a range of package memory unspecified. (DEDUCED, log entry 23) -/
def memForget (s : State) (lo hi : Nat) : State :=
  if hi ≤ lo then s else { s with mem := memFill s.mem lo hi (s.free + 1), free := s.free + 1 }

/-- Does `[a, a + len)` touch a stack that is lost (R15)? (DEDUCED, log entry 66) -/
def touchesLost (s : State) (a len : Nat) : Bool :=
  if (List.range (stacksOf s)).any (fun j => (stackGet s j).lost) then
    (List.range ((a + len + 4095) / 4096 - a / 4096)).any (fun i => (stackGet s (stackOf s ((a / 4096 + i) * 4096))).lost)
  else false
/-- The uncorrectable words that meet `[a, a + len)` (R272). (DEDUCED, log entry 65) -/
def badIn (s : State) (a len : Nat) : List Nat := s.ms.bad.filter (fun w => decide (a < w + 8) && decide (w < a + len))
/-- Does a read of HBM at `[a, a + len)` fail (R15, R272)? -/
def readFails (s : State) (a len : Nat) : Bool := !(badIn s a len).isEmpty || touchesLost s a len

/-- Adds a number to an ascending list without repeats. -/
def insertAsc (x : Nat) : List Nat → List Nat
  | [] => [x]
  | y :: t => if x < y then x :: y :: t else if x = y then y :: t else y :: insertAsc x t

/-- `n` bytes that the spec does not state. -/
def anyBytes (s : State) (n : Nat) : List Byte × State :=
  ((List.range n).map (Config.freeByte (s.free + 1)), { s with free := s.free + 1 })

/-- What a read of an uncorrectable word does besides failing: the count of its stack, the unit recorded for retirement,
UE and a fault record that names address and stack (R272). (DEDUCED, log entry 46) -/
def noteUe (s : State) (w : Nat) : State :=
  let j := stackOf s w
  let k := stackGet s j
  let s := stackPut s j { k with ueCount := satInc k.ueCount, ue := insertAsc (w / 4096) k.ue }
  event s .mem 1 j 0 0 w stData
/-- Notes every uncorrectable word of a range. -/
def noteUes (s : State) (a len : Nat) : State := each (badIn s a len) s noteUe
/-- What reads of HBM ranges meet, with what their refusals (R26, told with `status`) and uncorrectable words (R272) record: a range
that the map refuses is not read (R9, R26). -/
def readsMeet (s : State) (status : Byte) (l : List (Nat × Nat)) : Met × State :=
  let l := l.filter (fun p => p.2 != 0)
  let out := l.find? (fun p => !hbmOk s p.1 p.2)
  let fails := l.filter (fun p => hbmOk s p.1 p.2 && readFails s p.1 p.2)
  let m : Met := if fails.isEmpty then .none else .data (fails.any (fun p => !(badIn s p.1 p.2).isEmpty))
  let s := each fails s (fun s p => noteUes s p.1 p.2)
  match out with
  | some p => (m.and .prot, refusedAccess s (refusedAt s p.1 p.2) status)
  | none => (m, s)

/-! Die-cache copies (R42, R266): a home write drops every copy of the lines it touches before it is acknowledged. -/

/-- The set of a line in a die cache of 32,768 sets of 16 ways (R265). -/
def lineSet (n : Nat) : Nat := Config.cacheSet n % 32768
/-- The set of a line in a directory of 65,536 sets of 24 ways (R266). -/
def dirSetOf (n : Nat) : Nat := Config.dirSet n % 65536
/-- The lines die `d` holds. -/
def cacheGet (s : State) (d : Nat) : List Nat := tblGet (fun _ => []) s.coh.lines d
/-- The directory of stack `j`. -/
def dirGet (s : State) (j : Nat) : List (Nat × BitVec 4) := tblGet (fun _ => []) s.coh.dir j
/-- Adds to counter `c` of die cache `d`, wrapping (Table 14-4). -/
def cacheCount (s : State) (d c n : Nat) : State :=
  { s with coh := { s.coh with ctrs := tblMod (fun _ => 0) s.coh.ctrs (6 * d + c) (fun v => v + BitVec.ofNat 64 n) } }
/-- Sets the lines of die `d`. -/
def cachePut (s : State) (d : Nat) (l : List Nat) : State :=
  { s with coh := { s.coh with lines := tblSet (fun _ => []) s.coh.lines d l } }
/-- Sets the directory of stack `j`. -/
def dirPut (s : State) (j : Nat) (l : List (Nat × BitVec 4)) : State :=
  { s with coh := { s.coh with dir := tblSet (fun _ => []) s.coh.dir j l } }
/-- Drops the copies of the lines that satisfy `p` from die `d`, counting an INV for each. (DEDUCED, log entry 25) -/
def dropCopies (p : Nat → Bool) (s : State) (d : Nat) : State :=
  let l := cacheGet s d
  let n := (l.filter p).length
  if n = 0 then s else cacheCount (cachePut s d (l.filter (fun x => !p x))) d 3 n
/-- Invalidates every die-cache copy of the lines that satisfy `p`, and their directory entries. -/
def invalidate (s : State) (p : Nat → Bool) : State :=
  let s := each (List.range 4) s (dropCopies p)
  each (List.range (stacksOf s)) s (fun s j => dirPut s j ((dirGet s j).filter (fun e => !p e.1)))

/-! Home writes. -/

/-- The bytes of a write that a home applies: a byte of an uncorrectable word that the write does not cover
whole is left (R273). -/
def applyWrite (s : State) (a : Nat) (bs : List Byte) : State :=
  if s.ms.bad.isEmpty then memPut s a bs
  else
    let keep (w : Nat) : Bool := decide (w < a) || decide (a + bs.length < w + 8)
    let s := (List.range bs.length).foldl (fun s i =>
      let w := (a + i) / 8 * 8
      if s.ms.bad.contains w && keep w then s else memPut s (a + i) [bs.getD i 0]) s
    { s with ms := { s.ms with bad := s.ms.bad.filter (fun w => keep w || decide (w + 8 ≤ a) || decide (a + bs.length ≤ w)) } }
/-- Does a write meet an uncorrectable word that it covers in part (R273)? -/
def writeMeetsBad (s : State) (a len : Nat) : Bool :=
  (badIn s a len).any (fun w => decide (w < a) || decide (a + len < w + 8))

/-- The uncorrectable words that a write covers in part are noted (R273). -/
def notePartial (s : State) (a len : Nat) : State :=
  each ((badIn s a len).filter (fun w => decide (w < a) || decide (a + len < w + 8))) s noteUe

/-- A mirror entry. -/
def mirGet (s : State) (n : Nat) : Mirror := tblGet (fun _ => Mirror.off) s.mir.ents n
/-- Sets a mirror entry. -/
def mirPut (s : State) (n : Nat) (m : Mirror) : State :=
  { s with mir := { s.mir with ents := tblSet (fun _ => Mirror.off) s.mir.ents n m } }

/-- Cuts `[a, a + len)` into pieces that end at 4 KiB boundaries (R354), at most `fuel` of them. -/
def split4k : Nat → Nat → Nat → List (Nat × Nat)
  | 0, _, _ => []
  | f + 1, a, len =>
    if len = 0 then [] else
      let n := min len (4096 - a % 4096)
      (a, n) :: split4k f (a + n) (len - n)
/-- The pieces of `[a, a + len)` in whole. -/
def pieces (a len : Nat) : List (Nat × Nat) := split4k (len / 4096 + 2) a len

/-- The mirrored part of `[a, a + len)` under entry `n`, widened to whole 8-byte words, in pieces (R354, R403). A word that a write
left alone, because it is uncorrectable and only part-covered (R273), is no part of it. -/
def mirPieces (s : State) (a len n : Nat) : List (Nat × Nat) :=
  let m := mirGet s n
  if !(m.st = 1 || m.st = 2) then [] else
    let lo := max a m.lbase / 8 * 8
    let hi := (min (a + len) (m.lbase + m.size) + 7) / 8 * 8
    let lo := if s.ms.bad.contains lo && decide (lo < a ∨ a + len < lo + 8) then lo + 8 else lo
    let hi := if s.ms.bad.contains (hi - 8) && decide (hi - 8 < a ∨ a + len < hi) then hi - 8 else hi
    pieces lo (hi - lo)
/-- Notes the mirrored part of a home write for the mirror sender, with the bytes as the write left them (R403). -/
def mirNote (a len : Nat) (s : State) (n : Nat) : State :=
  (mirPieces s a len n).foldl (fun s p =>
    { s with mir := { s.mir with ranges := s.mir.ranges ++ [⟨s.mir.nextRange, n, p.1, memRead s.mem p.1 p.2, false, false⟩],
                                 nextRange := s.mir.nextRange + 1 } }) s
/-- Does a stack that homes part of `[a, a + len)` hold every write while its directory is being cleared (R269)?
(DEDUCED, log entry 7) -/
def dirHolds (s : State) (a len : Nat) : Bool :=
  !s.coh.stackInv.isEmpty && (List.range ((a + len + 4095) / 4096 - a / 4096)).any (fun i =>
    tblGet (fun _ => 0) s.coh.stackInv (stackOf s ((a / 4096 + i) * 4096)) != 0)
/-- The pending ranges of the mirror sender that were not sent (R405). -/
def mirWaiting (s : State) : Nat := (s.mir.ranges.filter (fun r => !r.sent)).length
/-- The pending ranges that a write of `[a, a + len)` makes. -/
def mirNeeds (s : State) (a len : Nat) : Nat := (List.range 64).foldl (fun k n => k + (mirPieces s a len n).length) 0
/-- Must the homes hold writes of these ranges, because the mirror sender has no room for what they make (R405) or a directory is
being cleared (R269)? -/
def mirHoldsAll (s : State) (l : List (Nat × Nat)) : Bool :=
  let need := l.foldl (fun k p => k + mirNeeds s p.1 p.2) 0
  l.any (fun p => dirHolds s p.1 p.2) || (need != 0 && decide (8192 < mirWaiting s + need))
/-- Must the homes hold a write of `[a, a + len)`? -/
def mirHolds (s : State) (a len : Nat) : Bool := mirHoldsAll s [(a, len)]

/-- Notes the bytes of a home write that lie in the range of entry `n` while it is in REBUILD: they are unspecified (R420). -/
def rebNote (a len : Nat) (s : State) (n : Nat) : State :=
  let m := mirGet s n
  let lo := max a m.lbase
  let hi := min (a + len) (m.lbase + m.size)
  if m.st = 4 ∧ lo < hi then memForget { s with mir := { s.mir with stray := s.mir.stray ++ [(n, lo, hi)] } } lo hi else s
/-- A write accepted by the homes of its lines: memory, copies invalidated, mirrored ranges noted, the bytes of a range that is being
rebuilt unspecified (R42, R403, R420). -/
def hbmWrite (s : State) (a : Nat) (bs : List Byte) : State :=
  let s := applyWrite s a bs
  let s := invalidate s (fun l => decide (a / 128 ≤ l) && decide (l ≤ (a + bs.length - 1) / 128))
  each (List.range 64) s (fun s n => rebNote a bs.length (mirNote a bs.length s n) n)
/-- A home write that is never mirrored (R403: rebuild copies, received mirror writes, the scrub). -/
def hbmWriteLocal (s : State) (a : Nat) (bs : List Byte) : State :=
  invalidate (applyWrite s a bs) (fun l => decide (a / 128 ≤ l) && decide (l ≤ (a + bs.length - 1) / 128))

/-! Outside writes into an engine window (R77). -/

/-- Do two footprints overlap? -/
def Foot.meets (x y : Foot) : Bool := x.acc == y.acc && decide (x.lo < y.hi) && decide (y.lo < x.hi)
/-- Notes an outside write for an instruction whose footprints it meets. (DEDUCED, log entry 24) -/
def taintBy (f : Foot) (q : QInstr) : QInstr :=
  if (q.srcs ++ q.dsts).any (fun g => g.meets f) then { q with taint := q.taint ++ [f] } else q
/-- Has an outside write met `[lo, hi)` of a store of the instruction's tiller (R77)? -/
def QInstr.hit (q : QInstr) (acc : Bool) (lo hi : Nat) : Bool := q.taint.any (⟨acc, lo, hi⟩ : Foot).meets
/-- A write into the stores of engine `e` from outside: the scoreboard does not order it, so what a dispatched instruction computes
from its bytes is unspecified (R77). -/
def windowWrite (s : State) (e : Nat) (acc : Bool) (off : Nat) (bs : List Byte) : State :=
  let f : Foot := ⟨acc, off, off + bs.length⟩
  let s := memPut s (storeAddr e acc off) bs
  engMod s e (fun x => { x with
    qmm := x.qmm.map (taintBy f), qvx := x.qvx.map (taintBy f), qmv := x.qmv.map (taintBy f), qsf := x.qsf.map (taintBy f),
    exec := x.exec.map (fun i => { i with i := taintBy f i.i }) })

/-! Temperatures. -/

/-- A zone as fitted (Table 22-3). -/
def Zone.fitted (z : Nat) : Zone := let n := if z < 32 then 3 else 2; ⟨0, [], n, 2, 0, List.range n⟩
/-- Zone `z`. -/
def zoneGet (s : State) (z : Nat) : Zone := (tblGet (fun _ => none) s.thm.zones z).getD (Zone.fitted z)

end Sys2Proof.Machine
end

