-- ==== Sys2Proof/Machine/Hint.lean ====
section
/-!
DEFINITION. Events armed for a beat that has passed (R57), and the arming of power phase hints (R152, R388, Table 3-4).
-/

namespace Sys2Proof.Machine

/-- A miss: LATE_EVENT with its fault record, and BEAT_LATE_COUNT (R57, R60). `idx` names what was armed. -/
def lateEvent (s : State) (idx b : Nat) : State :=
  event { s with beat := { s.beat with late := satInc s.beat.late } } .beat 4 idx 0 b

/-- Is a reclaim deadline or a lease expiry due that R58 puts before the work released at the same beat? -/
def cutDue (s : State) : Bool :=
  (s.lease.phase == 1 && decide (s.lease.armedD.toNat ≤ s.beat.now.toNat))
    || (s.lease.st == 1 && decide (s.lease.expiry.toNat ≤ s.beat.now.toNat))

/-- Is an armed phase hint due? -/
def hintDue (s : State) : Bool := s.pwr.hints.any (fun h => !h.on && decide (h.start.toNat ≤ s.beat.now.toNat))
/-- Is the armed switch of the routing bank due? -/
def switchDue (s : State) : Bool := s.rt.armed && decide (s.rt.armAt.toNat ≤ s.beat.now.toNat)
/-- Is the activation of a circuit due? -/
def activationDue (s : State) : Bool := s.ckt.ents.any (fun e => e.2.st == 1 && decide (e.2.act.toNat ≤ s.beat.now.toNat))
/-- Is anything due that R58 puts before beat waits of tillers and starts of descriptors? -/
def workDue (s : State) : Bool := cutDue s || hintDue s || switchDue s || activationDue s

/-! Ramps (R439). -/

/-- Compute die `d`. -/
def dieGet (s : State) (d : Nat) : PwrDie := tblGet (fun _ => PwrDie.init) s.pwr.dies d
/-- PWR_PHASE_n. -/
def phaseGet (s : State) (n : Nat) : W64 := tblGet (fun _ => 0) s.pwr.phases n
/-- M_n,d. -/
def phaseMean (v : W64) (d : Nat) : Nat := fld v (10 * d) 10
/-- COUNT. -/
def phaseCount (v : W64) : Nat := fld v 40 8
/-- The beats by which the ramp of die `d` leads the start of a hint (R439). -/
def rampLead (s : State) (k d : Nat) : Nat :=
  let up := phaseMean (phaseGet s k) d - (dieGet s d).power.toNat
  cdiv (up * 100000) (max 1 (s.optics.slew.toNat * 256 * 2 ^ s.beat.period.toNat))
/-- Has the beat come at which the ramp of die `d` for a hint of a known phase begins (R439)? -/
def rampDue (s : State) (h : Hint) (d : Nat) : Bool :=
  decide (2 ≤ phaseCount (phaseGet s h.phase)) && rampLead s h.phase d != 0
    && decide (h.start.toNat ≤ s.beat.now.toNat + rampLead s h.phase d)
/-- The dies whose ramp has begun, those whose beat has come among them. -/
def rampMask (s : State) (h : Hint) : BitVec 4 := (List.range 4).foldl (fun m d => putBit m d (m.getLsbD d || rampDue s h d)) h.ramp

/-- Arms a hint for phase `ph` from beat `start` on for `len` beats: it replaces an earlier hint for the phase; armed late it
applies for the rest of its length, and is discarded if that has passed too (Table 3-4). A ramp whose beat has passed starts at once
(R439). -/
def armHint (s : State) (ph : Nat) (start : W64) (len : Nat) : State :=
  let old := s.pwr.hints.filter (fun h => h.phase != ph)
  let put (l : List Hint) : State := { s with pwr := { s.pwr with hints := l } }
  let h : Hint := ⟨ph, start, len, false, true, 0⟩
  if s.beat.now.toNat < start.toNat then put (old ++ [{ h with ramp := rampMask s h }])
  else if s.beat.now.toNat < start.toNat + len then lateEvent (put (old ++ [{ h with on := true, whole := false }])) ph start.toNat
  else lateEvent (put old) ph start.toNat

end Sys2Proof.Machine
end

