-- ==== Sys2Proof/Machine/Num.lean ====
section
/-!
DEFINITION. Number formats, exact arithmetic and rounding (chapter 6): values are exact rationals, and
each operation computes exactly and rounds once.
-/

namespace Sys2Proof.Machine

/-- An exact value of a number format: NaN, an infinity, or `±num/den` with its sign kept on zero. -/
inductive Fl where
  | nan
  | inf (neg : Bool)
  | fin (neg : Bool) (num den : Nat)
  deriving DecidableEq, Repr

/-- Rounding of a conversion (R113); `sr r` is stochastic with the random word `r`. -/
inductive Rnd where
  | rne
  | rtz
  | sr (r : Nat)
  deriving DecidableEq, Repr

/-- Positive zero. -/
def Fl.zero : Fl := .fin false 0 1
/-- The value of an integer. -/
def Fl.ofInt (z : Int) : Fl := .fin (decide (z < 0)) z.natAbs 1
/-- Is the value NaN? -/
def Fl.isNan : Fl → Bool
  | .nan => true
  | _ => false
/-- Is the value an infinity? -/
def Fl.isInf : Fl → Bool
  | .inf _ => true
  | _ => false
/-- Is the value finite? -/
def Fl.isFin : Fl → Bool
  | .fin _ _ _ => true
  | _ => false
/-- Is the value a zero of either sign? -/
def Fl.isZero : Fl → Bool
  | .fin _ n _ => n == 0
  | _ => false
/-- The sign of the value (NaN has none). -/
def Fl.isNeg : Fl → Bool
  | .nan => false
  | .inf s => s
  | .fin s _ _ => s
/-- The value with its sign replaced. -/
def Fl.withSign (s : Bool) : Fl → Fl
  | .nan => .nan
  | .inf _ => .inf s
  | .fin _ n d => .fin s n d
/-- The magnitude. -/
def Fl.abs (x : Fl) : Fl := x.withSign false
/-- The value with its sign turned over. -/
def Fl.negate (x : Fl) : Fl := x.withSign (!x.isNeg)

/-- `2^e` as a fraction. -/
def pow2Frac (e : Int) : Nat × Nat := if e < 0 then (1, 2 ^ e.natAbs) else (2 ^ e.natAbs, 1)

/-- `⌊log₂ (num/den)⌋` for a positive fraction. -/
def flog2 (num den : Nat) : Int :=
  let e : Int := (Nat.log2 num : Int) - (Nat.log2 den : Int)
  let p := pow2Frac e
  if p.1 * den ≤ num * p.2 then e else e - 1

/-- Layout of a floating-point format: exponent and mantissa widths, bias, largest finite code
(sign excluded), the code of infinity if it has one, the canonical NaN if it has one (Table 6-1, R99). -/
structure FpFmt where
  ebits : Nat
  w     : Nat
  bias  : Nat
  maxc  : Nat
  infc  : Option Nat
  nanc  : Option Nat
  shift : Nat          -- low bits of the container that hold nothing (FP19, R103)
  sign  : Bool
  deriving DecidableEq, Repr

/-- The floating-point formats by their code (Table 4-4, Table 6-1). E8M0 is not among them. -/
def fpFmt : Nat → Option FpFmt
  | 0  => some ⟨8, 23, 127, 0x7F7FFFFF, some 0x7F800000, some 0x7FC00000, 0, true⟩
  | 1  => some ⟨8, 10, 127, 0x3FBFF, some 0x3FC00, some 0x3FE00, 13, true⟩
  | 2  => some ⟨8, 7, 127, 0x7F7F, some 0x7F80, some 0x7FC0, 0, true⟩
  | 3  => some ⟨5, 10, 15, 0x7BFF, some 0x7C00, some 0x7E00, 0, true⟩
  | 4  => some ⟨4, 3, 7, 0x7E, none, some 0x7F, 0, true⟩
  | 5  => some ⟨5, 2, 15, 0x7B, some 0x7C, some 0x7E, 0, true⟩
  | 6  => some ⟨3, 2, 3, 0x1F, none, none, 0, true⟩
  | 7  => some ⟨2, 3, 1, 0x1F, none, none, 0, true⟩
  | 8  => some ⟨2, 1, 1, 0x7, none, none, 0, true⟩
  | 12 => some ⟨4, 3, 7, 0x7E, none, some 0x7F, 0, false⟩
  | _  => none

/-- Bits stored per element by format code (Table 4-4). -/
def fmtBits : Nat → Nat
  | 0 => 32 | 1 => 32 | 2 => 16 | 3 => 16 | 4 => 8 | 5 => 8 | 6 => 6 | 7 => 6
  | 8 => 4 | 9 => 8 | 10 => 4 | 11 => 8 | 12 => 8 | 13 => 32 | 14 => 4 | _ => 1

/-- Two's complement value of the low `b` bits. -/
def sval (b v : Nat) : Int :=
  let m := v % 2 ^ b
  if m < 2 ^ (b - 1) then (m : Int) else (m : Int) - (2 ^ b : Nat)

/-- Is a format code an integer format (R101)? -/
def fmtIsInt (f : Nat) : Bool := f == 9 || f == 10 || f == 13

/-- The value of a floating-point code (R97, R98, R103). -/
def fpDecode (f : FpFmt) (code0 : Nat) : Fl :=
  let code := code0 >>> f.shift
  let body := code % 2 ^ (f.ebits + f.w)
  let neg := f.sign && code.testBit (f.ebits + f.w)
  let special :=
    if !f.sign && code.testBit 7 then some Fl.nan
    else match f.infc with
      | some i => if body = i then some (Fl.inf neg) else if body > i then some Fl.nan else none
      | none => match f.nanc with
        | some _ => if body > f.maxc then some Fl.nan else none
        | none => none
  match special with
  | some v => v
  | none =>
    let e := body >>> f.w
    let m := body % 2 ^ f.w
    let sig := if e = 0 then m else 2 ^ f.w + m
    let x : Int := (if e = 0 then (1 : Int) else (e : Int)) - (f.bias : Int) - (f.w : Int)
    let p := pow2Frac x
    .fin neg (sig * p.1) p.2

/-- The unscaled value of an element code of format `f` (R97, R101, R104). CB4 codes are looked up
elsewhere (R110). -/
def decodeFmt (f code : Nat) : Fl :=
  match fpFmt f with
  | some p => fpDecode p code
  | none =>
    if f == 9 then .ofInt (sval 8 code)
    else if f == 10 then .ofInt (sval 4 code)
    else if f == 13 then .ofInt (sval 32 code)
    else if f == 11 then
      (if code % 256 = 255 then .nan else
        let p := pow2Frac ((code % 256 : Nat) - 127 : Int)
        .fin false p.1 p.2)
    else if f == 15 then .ofInt (if code % 2 = 1 then -1 else 1)
    else .ofInt (code % 16 : Nat)

/-- Rounds the fraction `num/den` to an integer: `neg` does not matter, the magnitude is rounded
(R113, R121: stochastic rounding goes up when `r < ⌊f × 2³²⌋`). -/
def roundMag (rnd : Rnd) (num den : Nat) : Nat :=
  let q := num / den
  let rem := num % den
  match rnd with
  | .rtz => q
  | .rne => if 2 * rem < den then q else if 2 * rem > den then q + 1 else if q % 2 = 0 then q else q + 1
  | .sr r => if r % 2 ^ 32 < (rem * 2 ^ 32) / den then q + 1 else q

/-- The magnitude `num/den` on the format's grid, as a code without sign, with no upper bound on the
exponent (R114). -/
def fpRoundMag (f : FpFmt) (rnd : Rnd) (num den : Nat) : Nat :=
  if num = 0 then 0 else
    let emin : Int := 1 - (f.bias : Int)
    let l := flog2 num den
    let u := if l < emin then emin else l
    let p := pow2Frac (u - (f.w : Int))
    let m := roundMag rnd (num * p.2) (den * p.1)
    ((u - emin).toNat <<< f.w) + m

/-- The sign bit of a format, placed above its exponent. -/
def fpSign (f : FpFmt) (neg : Bool) : Nat := if f.sign && neg then 2 ^ (f.ebits + f.w) else 0

/-- Conversion of an exact value to a floating-point format (R99, R114, R115, Table 6-3). -/
def fpEncode (f : FpFmt) (rnd : Rnd) (sat : Bool) (x : Fl) : Nat :=
  let above (neg : Bool) : Nat :=
    if sat then fpSign f neg + f.maxc
    else match f.infc with
      | some i => fpSign f neg + i
      | none => match f.nanc with
        | some n => n
        | none => fpSign f neg + f.maxc
  let code := match x with
    | .nan => (match f.nanc with | some n => n | none => 0)
    | .inf neg => above neg
    | .fin neg n d =>
      let c := fpRoundMag f rnd n d
      if c ≤ f.maxc then fpSign f neg + c
      else match rnd with
        | .rtz => fpSign f neg + f.maxc
        | _ => above neg
  code <<< f.shift

/-- Does the floating-point format `dst` hold every value of format `src`, so that a conversion does not narrow (R113, R114)? CB4
elements are BF16 values (R110). -/
def holdsAll (dst src : Nat) : Bool :=
  match fpFmt dst, fpFmt (if src = 14 then 2 else src) with
  | some d, some x => decide (x.ebits ≤ d.ebits) && decide (x.w ≤ d.w)
  | _, _ => false

/-- Conversion of an exact value to an integer format: rounded, then clamped (R115, R116). The spec states no result for an integer
source that the format cannot hold; it is clamped too. (DESIGN CHOICE, log entry 151) -/
def intEncode (b : Nat) (rnd : Rnd) (x : Fl) : Nat :=
  let hi := 2 ^ (b - 1) - 1
  let put (neg : Bool) (m : Nat) : Nat :=
    if neg then (2 ^ b - (if m > hi + 1 then hi + 1 else m)) % 2 ^ b else (if m > hi then hi else m)
  match x with
  | .nan => 0
  | .inf neg => put neg (2 ^ b)
  | .fin neg n d => put neg (roundMag rnd n d)

/-- Conversion of an exact value to an E8M0 scale code: the power of two at or below it, clamped. -/
def e8m0Encode (x : Fl) : Nat :=
  match x with
  | .fin _ n d => if n = 0 then 0 else
      let e := flog2 n d
      if e < -127 then 0 else if e > 127 then 254 else (e + 127).toNat
  | _ => 255

/-- Conversion of an exact value to format `f` (R113 to R116). -/
def encodeFmt (f : Nat) (rnd : Rnd) (sat : Bool) (x : Fl) : Nat :=
  match fpFmt f with
  | some p => fpEncode p rnd sat x
  | none =>
    if f == 9 then intEncode 8 rnd x
    else if f == 10 then intEncode 4 rnd x
    else if f == 13 then intEncode 32 rnd x
    else if f == 11 then e8m0Encode x
    else 0

/-- The canonical NaN of format `f`, or +0 where it holds none (R99, R115). -/
def nanCode (f : Nat) : Nat := encodeFmt f .rne false .nan

/-- The FP32 layout. -/
def fp32 : FpFmt := ⟨8, 23, 127, 0x7F7FFFFF, some 0x7F800000, some 0x7FC00000, 0, true⟩
/-- The FP32 code of a value, rounded to nearest even. -/
def toF32 (x : Fl) : Nat := fpEncode fp32 .rne false x
/-- The value of an FP32 code. -/
def ofF32 (c : Nat) : Fl := fpDecode fp32 c
/-- A value rounded once to FP32 under RNE, with overflow to infinity. (DEDUCED, log entry 39) -/
def rnd32 (x : Fl) : Fl := ofF32 (toF32 x)

/-- Exact sum; a sum of opposite zeros, and an exact zero sum, is +0. -/
def Fl.plus : Fl → Fl → Fl
  | .nan, _ => .nan
  | _, .nan => .nan
  | .inf a, .inf b => if a = b then .inf a else .nan
  | .inf a, _ => .inf a
  | _, .inf b => .inf b
  | .fin s n d, .fin s' n' d' =>
    if n = 0 ∧ n' = 0 then .fin (s && s') 0 1
    else
      let a : Int := (n * d' : Nat)
      let b : Int := (n' * d : Nat)
      let t : Int := (if s then -a else a) + (if s' then -b else b)
      .fin (decide (t < 0)) t.natAbs (d * d')

/-- Exact product; zero times infinity is NaN. -/
def Fl.times : Fl → Fl → Fl
  | .nan, _ => .nan
  | _, .nan => .nan
  | .inf a, .inf b => .inf (a != b)
  | .inf a, .fin s n _ => if n = 0 then .nan else .inf (a != s)
  | .fin s n _, .inf b => if n = 0 then .nan else .inf (s != b)
  | .fin s n d, .fin s' n' d' => .fin (s != s') (n * n') (d * d')

/-- Exact quotient; 0/0 and inf/inf are NaN, x/0 is an infinity. -/
def Fl.divBy : Fl → Fl → Fl
  | .nan, _ => .nan
  | _, .nan => .nan
  | .inf _, .inf _ => .nan
  | .inf a, .fin s _ _ => .inf (a != s)
  | .fin s _ _, .inf b => .fin (s != b) 0 1
  | .fin s n d, .fin s' n' d' =>
    if n' = 0 then (if n = 0 then .nan else .inf (s != s'))
    else .fin (s != s') (n * d') (d * n')

/-- FP32 operations: exact, then one rounding (R169). -/
def f32add (a b : Fl) : Fl := rnd32 (a.plus b)
/-- FP32 difference. -/
def f32sub (a b : Fl) : Fl := rnd32 (a.plus b.negate)
/-- FP32 product. -/
def f32mul (a b : Fl) : Fl := rnd32 (a.times b)
/-- FP32 quotient, correctly rounded. -/
def f32div (a b : Fl) : Fl := rnd32 (a.divBy b)
/-- FP32 fused multiply-add: one rounding. -/
def f32fma (a b c : Fl) : Fl := rnd32 ((a.times b).plus c)

/-- Is `x < y`, for numbers (false when either is NaN)? Zeros of either sign are equal. -/
def Fl.lt : Fl → Fl → Bool
  | .nan, _ => false
  | _, .nan => false
  | .inf a, .inf b => a && !b
  | .inf a, _ => a
  | _, .inf b => !b
  | .fin s n d, .fin s' n' d' =>
    let a : Int := (n * d' : Nat)
    let b : Int := (n' * d : Nat)
    decide ((if s then -a else a) < (if s' then -b else b))

/-- Maximum: NaN if either is NaN; of two zeros, +0 unless both are −0 (R169). -/
def Fl.max2 (x y : Fl) : Fl :=
  if x.isNan || y.isNan then .nan
  else if x.isZero && y.isZero then .fin (x.isNeg && y.isNeg) 0 1
  else if x.lt y then y else x

/-- Minimum: NaN if either is NaN; of two zeros, −0 if either is −0 (R169). -/
def Fl.min2 (x y : Fl) : Fl :=
  if x.isNan || y.isNan then .nan
  else if x.isZero && y.isZero then .fin (x.isNeg || y.isNeg) 0 1
  else if y.lt x then y else x

/-- `⌊√n⌋`, one bit of the root at a time from bit `k` down. -/
def isqrtBits : Nat → Nat → Nat → Nat
  | 0, _, r => r
  | k + 1, n, r => let c := r + 2 ^ k; if c * c ≤ n then isqrtBits k n c else isqrtBits k n r

/-- `⌊√n⌋`. -/
def isqrt (n : Nat) : Nat := isqrtBits (Nat.log2 n / 2 + 1) n 0

/-- FP32 square root of an FP32 value, correctly rounded: √(n/d) = √(n·d)/d is taken to 200 further
bits, and a root that is not exact is placed strictly between two such bits, which no FP32 rounding
boundary separates. The root of a negative number is NaN, the root of −0 is −0. -/
def f32sqrt (x : Fl) : Fl :=
  match x with
  | .nan => .nan
  | .inf neg => if neg then .nan else .inf false
  | .fin neg n d =>
    if n = 0 then .fin neg 0 1
    else if neg then .nan
    else
      let big := n * d * 4 ^ 200
      let r := isqrt big
      rnd32 (if r * r = big then .fin false r (d * 2 ^ 200) else .fin false (2 * r + 1) (d * 2 ^ 201))

/-- Fixed point with 512 fraction bits: terms of the series of `e^(-y)`, `y < 1`, from term `k` on. -/
def expTerms : Nat → Nat → Nat → Int → Int → Int
  | 0, _, _, _, acc => acc
  | f + 1, k, y, term, acc =>
    let t := -(term * (y : Int)) / ((2 ^ 512 : Nat) * (k : Int))
    expTerms f (k + 1) y t (acc + t)

/-- Repeated squaring in fixed point with 512 fraction bits. -/
def expSquares : Nat → Nat → Nat
  | 0, v => v
  | f + 1, v => expSquares f (v * v / 2 ^ 512)

/-- `e^x` for an FP32 value `x ≤ 0`, correctly rounded to FP32 (R187). The argument is divided by 256,
the series summed with 512 fraction bits and the result squared eight times. The error is far below
the distance of any `e^x` from an FP32 rounding boundary. Below −104 the result rounds to +0. -/
def f32exp (x : Fl) : Fl :=
  match x with
  | .nan => .nan
  | .inf neg => if neg then .zero else .inf false
  | .fin neg n d =>
    if n = 0 then .fin false 1 1
    else if !neg then .inf false
    else if 104 * d < n then .zero
    else
      let y := n * 2 ^ 512 / (d * 256)
      let one : Int := (2 ^ 512 : Nat)
      let v := (expTerms 90 1 y one one).toNat
      rnd32 (.fin false (expSquares 8 v) (2 ^ 512))

/-- The integer part of a value in FP32 arithmetic, for a non-negative finite value. -/
def Fl.floorNat : Fl → Nat
  | .fin false n d => n / d
  | _ => 0

/-- The chunk result of R111: exact products truncated to the 48 bits under the largest, summed
exactly, and rounded once. -/
def dotFinite (ps : List Fl) : Fl :=
  let nz := ps.filter (fun p => !p.isZero)
  match nz with
  | [] => if !ps.isEmpty && ps.all Fl.isNeg then .fin true 0 1 else .zero
  | _ =>
    let lg (p : Fl) : Int := match p with | .fin _ n d => flog2 n d | _ => 0
    let emax := nz.foldl (fun m p => if m < lg p then lg p else m) (lg (nz.headD .zero))
    let u := pow2Frac (emax - 47)
    let q (p : Fl) : Int := match p with
      | .fin s n d => let m : Int := ((n * u.2) / (d * u.1) : Nat); if s then -m else m
      | _ => 0
    let t : Int := nz.foldl (fun a p => a + q p) 0
    if t = 0 then .zero else rnd32 (.fin (decide (t < 0)) (t.natAbs * u.1) u.2)

/-- The dot product of one chunk with its special values (R111, R112). (DEDUCED, log entry 40) -/
def dotChunk (ab : List (Fl × Fl)) : Fl :=
  let ps := ab.map (fun p => p.1.times p.2)
  if ps.any Fl.isNan then .nan
  else
    let hasP := ps.any (fun p => p.isInf && !p.isNeg)
    let hasN := ps.any (fun p => p.isInf && p.isNeg)
    if hasP && hasN then .nan
    else if hasP then .inf false
    else if hasN then .inf true
    else dotFinite ps

/-- One round of Philox-4×32. (PRESUMED, log entry 38) -/
def philoxRound (c : Nat × Nat × Nat × Nat) (k0 k1 : Nat) : Nat × Nat × Nat × Nat :=
  let p0 := 0xD2511F53 * c.1
  let p1 := 0xCD9E8D57 * c.2.2.1
  ((p1 / 2 ^ 32) ^^^ c.2.1 ^^^ k0, p1 % 2 ^ 32, (p0 / 2 ^ 32) ^^^ c.2.2.2 ^^^ k1, p0 % 2 ^ 32)

/-- `n` rounds of Philox-4×32, the key bumped between rounds. -/
def philoxRounds : Nat → Nat × Nat × Nat × Nat → Nat → Nat → Nat × Nat × Nat × Nat
  | 0, c, _, _ => c
  | n + 1, c, k0, k1 =>
    philoxRounds n (philoxRound c k0 k1) ((k0 + 0x9E3779B9) % 2 ^ 32) ((k1 + 0xBB67AE85) % 2 ^ 32)

/-- The random word of element index `idx` (R119, Table 6-4). -/
def philoxWord (step tid seed idx stream : Nat) : Nat :=
  let i := idx % 2 ^ 64
  let k0 := step % 2 ^ 32
  let k1 := (seed % 2 ^ 12) * 2 ^ 20 + tid % 2 ^ 20
  let c0 := (i / 4) % 2 ^ 32
  let c1 := i / 2 ^ 34
  let r := philoxRounds 10 (c0, c1, stream % 256, (step / 2 ^ 32) % 2 ^ 32) k0 k1
  if i % 4 = 0 then r.1 else if i % 4 = 1 then r.2.1 else if i % 4 = 2 then r.2.2.1 else r.2.2.2

end Sys2Proof.Machine
end

