-- ==== Sys2Proof/Machine/Operands.lean ====
section
/-!
DEFINITION. Operands of tiller instructions: the fields of the instruction word (R123, R124), slab descriptors and their
elements (R66 to R68, R102), scale slabs and codebooks (R105 to R110).
-/

namespace Sys2Proof.Machine

/-! The instruction word. -/

/-- An instruction word. -/
abbrev IWord := BitVec 128
/-- OPCODE. -/
def wOp (w : IWord) : Nat := fld w 0 8
/-- Operand field A. -/
def wA (w : IWord) : Nat := fld w 32 6
/-- Operand field B. -/
def wB (w : IWord) : Nat := fld w 40 6
/-- Operand field C. -/
def wC (w : IWord) : Nat := fld w 48 6
/-- Operand field D. -/
def wD (w : IWord) : Nat := fld w 56 6
/-- IMM. -/
def wImm (w : IWord) : Nat := fld w 64 32
/-- IMM sign-extended to 64 bits. -/
def wSimm (w : IWord) : W64 := (BitVec.ofNat 32 (wImm w)).signExtend 64
/-- The guard (R126): predicate PRED, inverted if PNEG is 1. p0 reads 1. -/
def guardOf (preds : BitVec 8) (w : IWord) : Bool :=
  let p := fld w 8 3
  (if p = 0 then true else preds.getLsbD p) != w.getLsbD 11

/-- What an operand field names (R124). -/
inductive Kind where
  | none | reg | pred | hand | tok
  deriving DecidableEq, Repr

/-- The largest value of an operand field of each kind. -/
def Kind.top : Kind → Nat
  | .none => 0 | .reg => 31 | .pred => 7 | .hand => 15 | .tok => 63

/-- How an opcode uses its fields: the kinds of A to D, the bits of [127:64] it uses, and the queue it goes to. -/
structure OpSpec where
  a    : Kind
  b    : Kind
  c    : Kind
  d    : Kind
  imm  : Nat
  qu   : Option EngQueue
  deriving DecidableEq, Repr

/-- RND, SAT and SR_* (Table 8-4), as bits of [127:64]. -/
def convBits : Nat := 7 + (2 ^ 20 - 1) * 2 ^ 32
/-- RND and SAT: all an INT32-result instruction uses of the conversion fields, since its result is not converted (R164, R167).
(DEDUCED, log entry 139) -/
def rndBits : Nat := 7
/-- SEL (Table 8-4). -/
def selBits : Nat := 0x1F0
/-- FLAG (Table 8-4). -/
def flagBit : Nat := 0x200
/-- The matrix fields of Table 8-1 in [127:64]. -/
def mmBits : Nat := 0x1FFFFFFF + (2 ^ 25 - 1) * 2 ^ 32
/-- STAT and RANK (R143). -/
def statBits : Nat := 2 ^ 20 - 1
/-- All of IMM. -/
def immBits : Nat := 2 ^ 32 - 1

/-- The opcodes of both instruction-set chapters (Tables 7-4 to 7-7, 7-10, 8-2, 8-5). (DEDUCED, log entry 139) -/
def opSpec (op : Nat) : Option OpSpec :=
  let ctl (a b c d : Kind) (imm : Nat) : Option OpSpec := some ⟨a, b, c, d, imm, none⟩
  let que (q : EngQueue) (a b c d : Kind) (imm : Nat) : Option OpSpec := some ⟨a, b, c, d, imm, some q⟩
  if op = 0x00 then ctl .none .none .none .none 0
  else if op = 0x01 then ctl .reg .none .none .none (2 ^ 64 - 1)
  else if op = 0x02 then ctl .reg .reg .none .none immBits
  else if 0x03 ≤ op ∧ op ≤ 0x0F then ctl .reg .reg .reg .none 0
  else if op = 0x10 then ctl .reg .reg .none .none immBits
  else if op = 0x11 ∨ op = 0x12 then ctl .reg .reg .none .none 0x3F
  else if op = 0x13 ∨ op = 0x14 then ctl .reg .reg .none .none immBits
  else if op = 0x20 then ctl .none .none .none .none immBits
  else if op = 0x21 then ctl .reg .none .none .none immBits
  else if op = 0x22 then ctl .none .reg .none .none 0
  else if op = 0x23 then ctl .none .reg .none .none immBits
  else if 0x24 ≤ op ∧ op ≤ 0x29 then ctl .pred .reg .reg .none 0
  else if 0x2A ≤ op ∧ op ≤ 0x2C then ctl .pred .reg .none .none immBits
  else if 0x2D ≤ op ∧ op ≤ 0x2F then ctl .pred .pred .pred .none 0
  else if op = 0x30 then ctl .pred .pred .none .none 0
  else if op = 0x31 then ctl .reg .none .none .none immBits
  else if 0x32 ≤ op ∧ op ≤ 0x34 then ctl .reg .none .none .none 0
  else if op = 0x35 then ctl .reg .tok .none .none 0
  else if op = 0x3F then ctl .none .none .none .none 0
  else if op = 0x40 then ctl .hand .reg .reg .none 0
  else if op = 0x41 then ctl .hand .hand .reg .none 0
  else if op = 0x42 then ctl .hand .hand .reg .reg 0
  else if op = 0x43 then ctl .reg .hand .none .none 1
  else if op = 0x44 then ctl .hand .none .none .none 0
  else if op = 0x60 then ctl .tok .reg .none .none 0
  else if op = 0x61 ∨ op = 0x62 then ctl .tok .reg .none .none 0
  else if op = 0x63 then ctl .none .reg .none .none 0
  else if op = 0x64 then ctl .tok .reg .reg .none 0
  else if op = 0x65 then ctl .none .none .none .none 0xF
  else if op = 0x66 then que .sf .none .reg .none .none (2 ^ 19 - 1)
  else if op = 0x67 then ctl .none .reg .reg .none 0xFF
  else if 0x80 ≤ op ∧ op ≤ 0x82 then que .mv .hand .reg .reg .none 0
  else if op = 0x83 ∨ op = 0x84 then que .mv .hand .hand .none .none 0
  else if op = 0x85 ∨ op = 0x86 then que .mv .hand .reg .reg .hand 0
  else if op = 0x87 then que .mv .hand .hand .none .none convBits
  else if op = 0xA0 ∨ op = 0xA1 then que .sf .hand .reg .reg .none statBits
  else if op = 0xA2 then que .sf .none .reg .reg .reg (2 ^ 23 - 1)
  else if 0xC0 ≤ op ∧ op ≤ 0xC5 then que .mm .hand .hand .hand (if op = 0xC3 then .reg else .none) mmBits
  else if (0xE0 ≤ op ∧ op ≤ 0xE2) ∨ op = 0xE4 ∨ op = 0xE5 then que .vx .hand .hand .hand .none convBits
  else if op = 0xE3 then que .vx .hand .hand .hand .hand convBits
  else if 0xE6 ≤ op ∧ op ≤ 0xEA then que .vx .hand .hand .none .none convBits
  else if op = 0xEB ∨ op = 0xEC then que .vx .hand .hand .none .none rndBits
  else if op = 0xED then que .vx .hand .hand .hand .none rndBits
  else if op = 0xEE then que .vx .hand .hand .none .none (rndBits + flagBit)
  else if op = 0xEF then que .vx .hand .hand .hand .none rndBits
  else if op = 0xF0 then que .vx .hand .hand .hand .hand selBits
  else if op = 0xF1 then que .vx .none .hand .none .none selBits
  else if op = 0xF2 then que .vx .hand .hand .none .none (convBits + selBits)
  else if op = 0xF3 then que .vx .hand .hand .hand .none (convBits + selBits + flagBit)
  else if op = 0xF4 then que .vx .hand .hand .hand .none (convBits + flagBit)
  else if op = 0xF8 then que .sf .hand .hand .none .none (2 ^ 24 - 1)
  else none

/-- Is a 64-bit value within a mask of usable bits? -/
def within (v mask : Nat) : Bool := (v &&& mask) == v

/-- The token fields of the header (R127): a token field whose enable bit is 0 is 0, and an instruction that the control
core executes has neither. -/
def tokensOk (w : IWord) (queued : Bool) : Bool :=
  let en := w.getLsbD 12
  let te := w.getLsbD 24
  (queued || (!en && !te)) && (en || (fld w 13 6 == 0 && fld w 19 5 == 0)) && (te || fld w 25 6 == 0)

/-- The checks that hold for every opcode: reserved bits, operand ranges, unused fields, token fields (R123, R124, R127). -/
def encodingOk (w : IWord) (sp : OpSpec) : Bool :=
  !w.getLsbD 31 && fld w 38 2 == 0 && fld w 46 2 == 0 && fld w 54 2 == 0 && fld w 62 2 == 0
    && decide (wA w ≤ sp.a.top) && decide (wB w ≤ sp.b.top) && decide (wC w ≤ sp.c.top) && decide (wD w ≤ sp.d.top)
    && within (fld w 64 64) sp.imm && tokensOk w sp.qu.isSome

/-! Slabs. -/

/-- A slab descriptor read out (Table 4-3). -/
structure Slab where
  base   : Nat
  acc    : Bool
  fmt    : Nat
  scal   : Nat
  tiled  : Bool
  rows   : Nat
  cols   : Nat
  stride : Nat
  scaleH : Nat
  valid  : Bool
  deriving DecidableEq, Repr

/-- Reads a slab descriptor. -/
def slabOf (d : BitVec 128) : Slab :=
  { base := fld d 0 19, acc := d.getLsbD 19, fmt := fld d 20 4, scal := fld d 24 2, tiled := d.getLsbD 26,
    rows := fld d 32 16, cols := fld d 48 16, stride := fld d 64 19, scaleH := fld d 84 4, valid := d.getLsbD 127 }

/-- Bits stored per element. -/
def Slab.bits (x : Slab) : Nat := fmtBits x.fmt
/-- Row bytes (R68). -/
def Slab.rowBytes (x : Slab) : Nat := x.cols * x.bits / 8
/-- The least stride in bytes: row bytes, or band bytes for the tiled layout (R68). -/
def Slab.minStride (x : Slab) : Nat := if x.tiled then cdiv x.cols 64 * (512 * x.bits) else x.rowBytes
/-- The extent for a stride given in bytes (R68, R136). -/
def Slab.extentAt (x : Slab) (stride : Nat) : Nat :=
  if x.tiled then (cdiv x.rows 64 - 1) * stride + cdiv x.cols 64 * (512 * x.bits)
  else (x.rows - 1) * stride + x.rowBytes
/-- The extent E (R68). -/
def Slab.extent (x : Slab) : Nat := x.extentAt (x.stride * 64)
/-- The footprint (R70). -/
def Slab.foot (x : Slab) : Foot := ⟨x.acc, x.base * 64, (x.base * 64 + x.extent + 63) / 64 * 64⟩

/-- The scalings a format allows (Table 6-2). -/
def scalAllowed (fmt scal : Nat) : Bool :=
  scal == 0 || (scal == 1 && (decide (4 ≤ fmt ∧ fmt ≤ 9))) || (scal == 2 && decide (4 ≤ fmt ∧ fmt ≤ 8))

/-- The checks of R68 on a descriptor. -/
def slabPasses (d : BitVec 128) : Bool :=
  let x := slabOf d
  decide (1 ≤ x.rows) && decide (1 ≤ x.cols) && (x.cols * x.bits) % 8 == 0 && decide (x.minStride ≤ x.stride * 64)
    && decide (x.extent ≤ 0x1000000) && decide (x.base * 64 + x.extent ≤ (if x.acc then 0x400000 else 0x1800000))
    && (!x.acc || x.fmt == 0 || x.fmt == 13) && scalAllowed x.fmt x.scal
    && fld d 27 5 == 0 && !d.getLsbD 83 && fld d 88 39 == 0

/-- A descriptor with VALID set as the checks of R68 decide (R134). -/
def withValid (d : BitVec 128) : BitVec 128 := putBit d 127 (slabPasses d)

/-- Byte offset in the store, and bit offset from there, of an element (R68, R102). -/
def Slab.place (x : Slab) (r c : Nat) : Nat × Nat :=
  if x.tiled then
    (x.base * 64 + (r / 64) * (x.stride * 64) + (c / 64) * (512 * x.bits) + (r % 64) * (8 * x.bits), (c % 64) * x.bits)
  else (x.base * 64 + r * (x.stride * 64), c * x.bits)

/-- Reads a bit field that starts `bit` bits above byte `a` of package memory. -/
def readBits (s : State) (a bit b : Nat) : Nat :=
  (memNat s (a + bit / 8) ((bit % 8 + b + 7) / 8) >>> (bit % 8)) % 2 ^ b
/-- Writes a bit field that starts `bit` bits above byte `a` of package memory. -/
def writeBits (s : State) (a bit b v : Nat) : State :=
  let n := (bit % 8 + b + 7) / 8
  let old := memNat s (a + bit / 8) n
  let cur := (old >>> (bit % 8)) % 2 ^ b
  memPut s (a + bit / 8) (leBytes n (old - cur * 2 ^ (bit % 8) + (v % 2 ^ b) * 2 ^ (bit % 8)))

/-- The code of element (r, c) of a slab of engine `e`. -/
def elemGet (s : State) (e : Nat) (x : Slab) (r c : Nat) : Nat :=
  let p := x.place r c
  readBits s (storeAddr e x.acc p.1) p.2 x.bits
/-- Writes the code of element (r, c) of a slab of engine `e`. -/
def elemPut (e : Nat) (x : Slab) (s : State) (r c v : Nat) : State :=
  let p := x.place r c
  writeBits s (storeAddr e x.acc p.1) p.2 x.bits v

/-- All (row, column) pairs of a slab, row by row. -/
def Slab.cells (x : Slab) : List (Nat × Nat) :=
  (List.range x.rows).flatMap (fun r => (List.range x.cols).map (fun c => (r, c)))

/-- Makes the element bytes of a slab unspecified: what a transfer or computation cut short leaves (R139, R163, R77). -/
def slabForget (s : State) (e : Nat) (x : Slab) : State :=
  if x.tiled then
    (List.range x.rows).foldl (fun s r => (List.range (cdiv x.cols 64)).foldl (fun s t =>
      let lo := storeAddr e x.acc (x.place r (64 * t)).1
      memForget s lo (lo + (min 64 (x.cols - 64 * t)) * x.bits / 8)) s) s
  else
    (List.range x.rows).foldl (fun s r =>
      let lo := storeAddr e x.acc (x.place r 0).1
      memForget s lo (lo + x.rowBytes)) s

/-- A code of `bits` bits that the spec does not state: the free value number `i` under `tag`. -/
def freeCode (tag i bits : Nat) : Nat := leNat ((List.range 4).map (fun k => Config.freeByte tag (4 * i + k))) % 2 ^ bits
/-- Is thing number `i` among those that a free choice under `tag` picks? -/
def chosen (tag i : Nat) : Bool := (Config.freeByte tag i).getLsbD 0
/-- The elements of a slab that satisfy `p` get unspecified codes (R77). -/
def freeCells (s : State) (e : Nat) (x : Slab) (p : Nat → Nat → Bool) : State :=
  let tag := s.free + 1
  (x.cells.filter (fun c => p c.1 c.2)).foldl
    (fun s c => elemPut e x s c.1 c.2 (freeCode tag (c.1 * x.cols + c.2) x.bits)) { s with free := tag }
/-- Of the elements of a slab that satisfy `p`, those that a free choice picks get unspecified codes: the others were written before
the read that failed (R139, R163). -/
def freeSome (s : State) (e : Nat) (x : Slab) (p : Nat → Nat → Bool) : State :=
  let tag := s.free + 1
  freeCells { s with free := tag } e x (fun r c => p r c && chosen tag (r * x.cols + c))

/-- `n` bytes of a store of the instruction's tiller `e`: those that an outside write has met are unspecified (R77). -/
def QInstr.bytesOf (q : QInstr) (s : State) (e : Nat) (acc : Bool) (off n : Nat) : List Byte × State :=
  let bs := memRead s.mem (storeAddr e acc off) n
  if !q.hit acc off (off + n) then (bs, s)
  else ((List.range n).map (fun i => if q.hit acc (off + i) (off + i + 1) then Config.freeByte (s.free + 1) i else bs.getD i 0),
    { s with free := s.free + 1 })
/-- Has an outside write met a byte of element (r, c) of slab `x` (R77)? -/
def QInstr.hitElem (q : QInstr) (x : Slab) (r c : Nat) : Bool :=
  let p := x.place r c
  q.hit x.acc (p.1 + p.2 / 8) (p.1 + (p.2 + x.bits - 1) / 8 + 1)

/-- Of bytes that were under way, those that a free choice picks are unspecified (R139). -/
def someBytes (s : State) (bs : List Byte) : List Byte × State :=
  let tag := s.free + 1
  ((List.range bs.length).map (fun i => if chosen tag i then Config.freeByte (tag + 1) i else bs.getD i 0), { s with free := tag + 1 })
/-- What outside writes leave of a slab that the instruction has written: an element is unspecified where such a write met its own
bytes, or what it comes from (`p`); every other keeps its value (R77). -/
def freeHit (s : State) (e : Nat) (q : QInstr) (x : Slab) (p : Nat → Nat → Bool) : State :=
  if q.taint.isEmpty then s else freeCells s e x (fun r c => q.hitElem x r c || p r c)
/-- The instruction `q` as one whose read found the uncorrectable word at package address `a`: what comes from it is unspecified. -/
def QInstr.badAt (q : QInstr) (e a : Nat) : QInstr :=
  let w := a / 8 * 8
  if storeAddr e true 0 ≤ w ∧ w < storeAddr e true 0x400000 then
    { q with taint := q.taint ++ [⟨true, w - storeAddr e true 0, w - storeAddr e true 0 + 8⟩] }
  else if storeAddr e false 0 ≤ w ∧ w < storeAddr e true 0 then
    { q with taint := q.taint ++ [⟨false, w - storeAddr e false 0, w - storeAddr e false 0 + 8⟩] }
  else q

/-! Scaled and CB4 operands. -/

/-- Is a scale slab or codebook named by the slab (R66)? -/
def Slab.needsScale (x : Slab) : Bool := x.scal != 0 || x.fmt == 14
/-- The block size of a scaling (R106). -/
def Slab.block (x : Slab) : Nat := if x.scal = 2 then 16 else 32
/-- Do the scales of `sc` run along rows of `x` (R106)? -/
def rowBlocks (x sc : Slab) : Bool := sc.rows == x.rows && sc.cols == cdiv x.cols x.block
/-- Do the scales of `sc` run along columns of `x` (R106)? -/
def colBlocks (x sc : Slab) : Bool := sc.rows == cdiv x.rows x.block && sc.cols == x.cols
/-- Does `sc` meet R106 to R108, or the codebook rule R110, for the slab `x`? (DEDUCED, log entry 35) -/
def scaleOk (x sc : Slab) : Bool :=
  sc.valid && !sc.acc && sc.scal == 0 &&
    (if x.fmt = 14 then sc.fmt == 2 && !sc.tiled && sc.rows == 1 && sc.cols == 16
     else sc.fmt == (if x.scal = 1 then 11 else 12) && (rowBlocks x sc || colBlocks x sc)
       && (x.scal == 1 || decide (1 ≤ sc.base)))
/-- The footprint of a scale slab or codebook: for SCALING 2 it begins 64 bytes lower (R108). -/
def scaleFoot (x sc : Slab) : Foot :=
  let f := sc.foot
  if x.scal = 2 then ⟨f.acc, f.lo - 64, f.hi⟩ else f

/-- A data slab with its scale slab or codebook. -/
structure Oper where
  sl : Slab
  sc : Slab
  deriving DecidableEq, Repr

/-- The per-tensor scale of a SCALING 2 slab (R107). -/
def tensorScale (s : State) (e : Nat) (o : Oper) : Fl := ofF32 (memNat s (storeAddr e false (o.sc.base * 64 - 64)) 4)
/-- The place in the scale slab of the scale of element (r, c) (R106). -/
def Oper.blockOf (o : Oper) (r c : Nat) : Nat × Nat :=
  if rowBlocks o.sl o.sc then (r, c / o.sl.block) else (r / o.sl.block, c)
/-- The code of the block scale of element (r, c) (R106). -/
def blockScale (s : State) (e : Nat) (o : Oper) (r c : Nat) : Nat := elemGet s e o.sc (o.blockOf r c).1 (o.blockOf r c).2
/-- Has an outside write met a byte of the per-tensor scale of the operand? -/
def QInstr.hitTensor (q : QInstr) (o : Oper) : Bool :=
  o.sl.scal == 2 && q.hit false (o.sc.base * 64 - 64) (o.sc.base * 64 - 60)
/-- Has an outside write met a byte that the value of element (r, c) comes from: its own, its scales', its codebook's (R77)? -/
def QInstr.hitOper (q : QInstr) (o : Oper) (r c : Nat) : Bool :=
  q.hitElem o.sl r c || (o.sl.fmt == 14 && q.hit false (o.sc.base * 64) (o.sc.base * 64 + 32))
    || (o.sl.scal != 0 && q.hitElem o.sc (o.blockOf r c).1 (o.blockOf r c).2) || q.hitTensor o

/-- The exact value of an element (R97, R101, R109, R110). -/
def elemVal (s : State) (e : Nat) (o : Oper) (r c : Nat) : Fl :=
  let code := elemGet s e o.sl r c
  if o.sl.fmt = 14 then decodeFmt 2 (memNat s (storeAddr e false (o.sc.base * 64 + 2 * code)) 2)
  else
    let v := decodeFmt o.sl.fmt code
    if o.sl.scal = 0 then v
    else
      let v := if o.sl.fmt = 9 then v.times (.fin false 1 64) else v
      let k := blockScale s e o r c
      let b := decodeFmt o.sc.fmt k
      if v.isNan || b.isNan then .nan
      else if o.sl.scal = 1 then v.times b
      else
        let t := tensorScale s e o
        if !t.isFin || t.isZero then .nan
        else if k = 0 then .fin v.isNeg 0 1
        else (v.times b).times t

end Sys2Proof.Machine
end

