-- ==== Sys2Proof/Machine/Control.lean ====
section
/-!
DEFINITION. The control core of a tiller: registers, counters, token counters, exceptions, the end of a program, and
dispatch (R61 to R64, R73, R74, R78, R123 to R128, R153 to R155, R500).
-/

namespace Sys2Proof.Machine

/-! Registers and counters. -/

/-- Scalar register `i`: s0 reads 0 (R61). -/
def sregOf (rs : Tbl W64) (i : Nat) : W64 := if i = 0 then 0 else tblGet (fun _ => 0) rs i
/-- Scalar register `i` of a tiller. -/
def Engine.sreg (g : Engine) (i : Nat) : W64 := sregOf g.sregs i
/-- Writes scalar register `i`: a write to s0 has no effect (R61). -/
def Engine.setSreg (g : Engine) (i : Nat) (v : W64) : Engine :=
  if i = 0 then g else { g with sregs := tblSet (fun _ => 0) g.sregs i v }
/-- Predicate `i` written. -/
def Engine.setPred (g : Engine) (i : Nat) (v : Bool) : Engine := { g with preds := predSet g.preds i v }
/-- Handle `i`. -/
def Engine.hand (g : Engine) (i : Nat) : BitVec 128 := tblGet (fun _ => 0) g.handles i
/-- Writes all of handle `i`. -/
def Engine.setHand (g : Engine) (i : Nat) (d : BitVec 128) : Engine :=
  { g with handles := tblSet (fun _ => 0) g.handles i d }
/-- Token counter `i`. -/
def Engine.tok (g : Engine) (i : Nat) : W32 := tblGet (fun _ => 0) g.toks i
/-- Writes token counter `i`. -/
def Engine.setTok (g : Engine) (i : Nat) (v : W32) : Engine := { g with toks := tblSet (fun _ => 0) g.toks i v }
/-- Performance counter `n` (Table 4-6). -/
def Engine.ctr (g : Engine) (n : Nat) : BitVec 48 := tblGet (fun _ => 0) g.ctrs n
/-- Advances performance counter `n`, wrapping at 2^48 (R73). -/
def Engine.count (g : Engine) (n : Nat) : Engine := { g with ctrs := tblMod (fun _ => 0) g.ctrs n (fun v => v + 1) }
/-- Does performance counter `n` count nothing but engine cycles, which the model does not have (CYCLES, BUSY_q)? -/
def cycleCtr (n : Nat) : Bool := n == 0 || decide (4 ≤ n ∧ n ≤ 7)
/-- A counter of cycles has begun to count: the tiller has run, or the unit has executed. -/
def Engine.counts (g : Engine) (n : Nat) : Engine := { g with ctrs := tblSet (fun _ => 0) g.ctrs n 1 }
/-- What a reader of counter `n` of tiller `e` finds: a free value, drawn with number `k`, where it counts cycles and has begun to
(R73, R133). (DESIGN CHOICE, log entry 34) -/
def ctrSeen (s : State) (e n k : Nat) : BitVec 48 :=
  let v := tblGet (fun _ => 0) (engGet s e).ctrs n
  if cycleCtr n && v != 0 then (Config.freeWord (s.free + k)).setWidth 48 else v
/-- The instruction at index `i` of the instruction store. -/
def Engine.instrAt (g : Engine) (i : Nat) : IWord := tblGet (fun _ => 0) g.istore i
/-- Function slot `n` (R175). -/
def Engine.slot (g : Engine) (n : Nat) : FnSlot := tblGet (fun _ => FnSlot.zero) g.slots n

/-- The number of a queue (Table 25-6). -/
def quNum : EngQueue → Nat
  | .mm => 0 | .vx => 1 | .mv => 2 | .sf => 3
/-- One of the four queues. -/
def Engine.queue (g : Engine) : EngQueue → List QInstr
  | .mm => g.qmm | .vx => g.qvx | .mv => g.qmv | .sf => g.qsf
/-- Sets one of the four queues. -/
def Engine.setQueue (g : Engine) (q : EngQueue) (l : List QInstr) : Engine :=
  match q with
  | .mm => { g with qmm := l } | .vx => { g with qvx := l } | .mv => { g with qmv := l } | .sf => { g with qsf := l }
/-- The write of the instruction number `ord` will never be visible: the increments that wait for it never take effect (R75, R146).
(DEDUCED, log entry 137) -/
def Engine.unwritten (g : Engine) (ord : Nat) : Engine := { g with incs := g.incs.filter (fun i => decide (i.ord ≤ ord)) }
/-- Every queued instruction is discarded (R78, Table 4-2). (DEDUCED, log entry 137) -/
def Engine.discard (g : Engine) : Engine :=
  let g := (g.qmm ++ g.qvx ++ g.qmv ++ g.qsf).foldl (fun g q => g.unwritten q.ord) g
  { g with qmm := [], qvx := [], qmv := [], qsf := [], bar := none }
/-- The dispatched instructions that have not completed. -/
def Engine.uncompleted (g : Engine) : List QInstr := g.qmm ++ g.qvx ++ g.qmv ++ g.qsf ++ g.exec.map (fun x => x.i)
/-- Are all four queues empty and has every issued instruction completed? -/
def Engine.drained (g : Engine) : Bool := g.qmm.isEmpty && g.qvx.isEmpty && g.qmv.isEmpty && g.qsf.isEmpty && g.exec.isEmpty

/-! Exceptions. -/

/-- The status that ENGINE_START completes with (Table 7-11). -/
def excStatus (code : Nat) : Byte := if code = 3 then stProt else if code = 6 then stData else stMalformed

/-- The fault record of an exception (R155). -/
def excRecord (s : State) (e : Nat) (x : Exc) : State :=
  record s 1 (excStatus x.code) 16 0xFF x.addr
    ([BitVec.ofNat 8 x.code, x.op] ++ leBytes 2 x.idx.toNat ++
      [BitVec.ofNat 8 x.qn, BitVec.ofNat 8 e, BitVec.ofNat 8 ((tileOf s e).getD 0)])

/-- A tiller leaves the run that a started descriptor began: the descriptor hears of it (R351, R387). -/
def engLeave (s : State) (e : Nat) (status : Byte) (faulted : Bool) (beat : W64) : State :=
  match (engGet s e).owner with
  | none => s
  | some k =>
    let s := engMod s e (fun g => { g with owner := none })
    { s with hif := { s.hif with started := s.hif.started.map (fun d =>
        if d.id = k then { d with engLeft := putBit d.engLeft e false, engDone := d.engDone ++ [(e, status, faulted, beat)] }
        else d) } }

/-- What follows when nothing is left to issue or complete: FAULTED after an exception (R78), STOPPED after QUIET or sy.end
(R63, Table 4-2). The status of a run that is cut off after an exception is the first of the two (R9, R425).
(DEDUCED, log entry 32) -/
def engSettle (s : State) (e : Nat) : State :=
  let g := engGet s e
  if g.st = .quiet ∧ g.exec = [] then
    engLeave (engPut s e { g.discard with st := .stopped, ending := false, exc := none, cutBy := 0 }) e
      (pickStatus (g.cutBy :: (g.exc.map (fun x => excStatus x.code)).toList)) false s.beat.now
  else if (g.st = .running ∨ g.st = .halted) ∧ g.exc.isSome = true ∧ g.exec = [] then
    let x := g.exc.getD ⟨0, 0, 0, 0, 0, 0, 0⟩
    engLeave (engPut s e { g with st := .faulted, ending := false, single := false }) e (excStatus x.code) true x.beat
  else if g.st = .running ∧ g.ending = true ∧ g.drained = true then
    engLeave (engPut s e { g with st := .stopped, ending := false, single := false }) e stDone false s.beat.now
  else s

/-- An exception is raised (R78, R154): the first of a run stops dispatch and empties the queues; any other, and one in
QUIET or after FAULTED, only writes its record. -/
def raiseExc (s : State) (e : Nat) (x : Exc) : State :=
  let s := excRecord s e x
  let g := engGet s e
  if (g.st = .running ∨ g.st = .halted) ∧ g.exc = none then
    engSettle (engPut s e { g.discard with exc := some x }) e
  else s

/-- An increment of token counter `t` of engine `e` (R74): at its top it stays, and the tiller raises TOKEN_OVERFLOW, or only
writes the record, with index and opcode 0, where it is STOPPED, FAULTED or QUIET. `own` is the instruction whose completion
increments it, with its queue; for any other source the spec names no instruction, and the record's fields for it are free.
(DEDUCED, log entry 29) -/
def tokInc (s : State) (e t : Nat) (own : Option (QInstr × Nat)) : State :=
  let g := engGet s e
  if !present s e then s
  else if g.tok t != BitVec.allOnes 32 then engPut s e (g.setTok t (g.tok t + 1))
  else
    let (v, s) := if own.isNone then drawFree s else (0, s)
    let q := (own.map (fun x => x.2)).getD (fld v 24 8)
    if g.st = .running ∨ g.st = .halted then
      match own with
      | some (i, _) => raiseExc s e ⟨4, i.idx, BitVec.ofNat 8 (wOp i.word), q, 0, i.ord, s.beat.now⟩
      | none => raiseExc s e ⟨4, BitVec.ofNat 14 v.toNat, BitVec.ofNat 8 (fld v 16 8), q, 0, g.ord, s.beat.now⟩
    else excRecord s e ⟨4, 0, 0, q, 0, g.ord, s.beat.now⟩

/-! Dispatch. -/

/-- What the control core does with the instruction at its program counter: goes on to the next, branches, waits, or raises
an exception with a code and an address. -/
inductive Ctl where
  | go (s : State)
  | jump (s : State) (pc : Nat)
  | stall (s : State)
  | trap (s : State) (code : Nat) (addr : W64)

/-- Can the control core of `e` dispatch? -/
def canDispatch (s : State) (e : Nat) : Bool :=
  let g := engGet s e
  present s e && g.st == .running && !g.ending && !g.past && g.exc.isNone
/-- The instruction at the program counter. -/
def Engine.word (g : Engine) : IWord := g.instrAt g.pc.toNat

/-- After a dispatch: STEP halts again (R500). -/
def afterDispatch (s : State) (e : Nat) : State :=
  let s := engSettle s e
  let g := engGet s e
  if g.single && g.st == .running then engPut s e { g with st := .halted, single := false, skip := false }
  else engPut s e { g with skip := false }

/-- On to the next index; past index 16,383 nothing more is dispatched (R62). (DESIGN CHOICE, log entry 26) -/
def advance (s : State) (e : Nat) : State :=
  afterDispatch (engMod s e (fun g => if g.pc.toNat = 16383 then { g with past := true } else { g with pc := g.pc + 1 })) e

/-- The exception of an instruction at the control core or at dispatch: queue `q` of the record (R153 to R155). -/
def trapAt (s : State) (e : Nat) (q : Nat) (code : Nat) (addr : W64) : State :=
  let g := engGet s e
  raiseExc s e ⟨code, g.pc, BitVec.ofNat 8 (wOp g.word), q, addr, g.ord, s.beat.now⟩

/-- A breakpoint whose INDEX is about to be dispatched (Table 25-11): the lowest number. -/
def bpHit (g : Engine) : Option Nat :=
  (List.range 8).find? (fun k => let b := tblGet (fun _ => 0) g.bps k; b.getLsbD 63 && fld b 0 14 == g.pc.toNat)
/-- A watchpoint that the footprints meet (R500): the lowest number. Watchpoints cover tile SRAM. -/
def wpHit (g : Engine) (srcs dsts : List Foot) : Option Nat :=
  (List.range 4).find? (fun k =>
    let w := tblGet (fun _ => 0) g.wps k
    let f : Foot := ⟨false, fld w 0 19 * 64, (fld w 0 19 + fld w 19 19) * 64⟩
    w.getLsbD 63 && ((w.getLsbD 38 && srcs.any f.meets) || (w.getLsbD 39 && dsts.any f.meets)))
/-- A match halts the core before the dispatch, with the cause in T_STATE and BREAK set (R500). -/
def breakAt (s : State) (e : Nat) (wp : Bool) (k : Nat) : State :=
  let c := BitVec.ofNat 5 ((if wp then 2 else 1) + 4 * k)
  let s := engMod s e (fun g => { g with st := .halted, single := false, cause := c })
  event s .dbg 2 e 0 k

/-- The checks of an encoding beyond reserved bits and operand ranges: `more` for the opcode (R123 to R127). -/
def encodingGood (w : IWord) (more : IWord → Bool) : Bool :=
  match opSpec (wOp w) with
  | some sp => encodingOk w sp && more w
  | none => false

/-- The queue number of a word in an exception record: 4 for the control core. -/
def wordQueue (w : IWord) : Nat :=
  match opSpec (wOp w) with
  | some ⟨_, _, _, _, _, some q⟩ => quNum q
  | _ => 4

/-- Is the guard of the opcode its branch condition (R126)? -/
def isBranch (op : Nat) : Bool := decide (0x20 ≤ op ∧ op ≤ 0x23)

/-- An exception for which the spec names no address: the record's is a free value. (DESIGN CHOICE, log entry 30) -/
def trapFree (s : State) (code : Nat) : Ctl :=
  let (v, s) := drawFree s
  .trap s code v

/-- Applies what the control core did. -/
def finish (e : Nat) (q : Nat) : Ctl → State
  | .go s => advance s e
  | .jump s pc => afterDispatch (engMod s e (fun g => { g with pc := BitVec.ofNat 14 pc })) e
  | .stall s => s
  | .trap s code addr => trapAt s e q code addr

/-- One attempt of the control core of `e` to dispatch the instruction at its program counter, which must carry opcode `op`:
breakpoints, the checks of the encoding, the guard, watchpoints on the footprints `feet`, then `f` (R123 to R128, R500).
Where the core cannot dispatch, or the opcode is another, nothing happens. (DEDUCED, log entry 4) (DEDUCED, log entry 28) -/
def dispatch (op : Nat) (more : IWord → Bool) (feet : State → Nat → IWord → List Foot × List Foot)
    (f : State → Nat → IWord → Ctl) (s : State) (e : Nat) : State :=
  let g := engGet s e
  let w := g.word
  if !canDispatch s e || wOp w != op then s
  else if g.bar.isSome then finish e (wordQueue w) (f s e w)
  else
    match (if g.skip then none else bpHit g) with
    | some k => breakAt s e false k
    | none =>
      if !encodingGood w more then trapAt s e (wordQueue w) 1 0
      else if !isBranch op && !guardOf g.preds w then advance s e
      else
        match (if g.skip then none else wpHit g (feet s e w).1 (feet s e w).2) with
        | some k => breakAt s e true k
        | none => finish e (wordQueue w) (f s e w)

/-- No footprints. -/
def noFeet (_ : State) (_ : Nat) (_ : IWord) : List Foot × List Foot := ([], [])
/-- No further encoding rule. -/
def noMore (_ : IWord) : Bool := true

/-- A control-core instruction that changes its own tiller and goes on; it counts as completed (Table 4-6).
(DEDUCED, log entry 33) -/
def core1 (op : Nat) (f : State → Nat → IWord → Engine → Engine) : State → Nat → State :=
  dispatch op noMore noFeet (fun s e w => .go (engMod s e (fun g => (f s e w g).count 1)))

/-- A two-register scalar operation (Table 7-4). -/
def alu (op : Nat) (f : W64 → W64 → W64) : State → Nat → State :=
  core1 op (fun _ _ w g => g.setSreg (wA w) (f (g.sreg (wB w)) (g.sreg (wC w))))
/-- A scalar operation with the sign-extended immediate. -/
def alui (op : Nat) (f : W64 → W64 → W64) : State → Nat → State :=
  core1 op (fun _ _ w g => g.setSreg (wA w) (f (g.sreg (wB w)) (wSimm w)))
/-- A comparison of two registers. -/
def compare2 (op : Nat) : State → Nat → State :=
  core1 op (fun _ _ w g => g.setPred (wA w) (compareBy op (g.sreg (wB w)) (g.sreg (wC w))))
/-- A comparison with the sign-extended immediate. -/
def comparei (op : Nat) : State → Nat → State :=
  core1 op (fun _ _ w g => g.setPred (wA w) (compareImm op (g.sreg (wB w)) (wSimm w)))
/-- Logic of two predicates. -/
def logic2 (op : Nat) : State → Nat → State :=
  core1 op (fun _ _ w g => g.setPred (wA w) (predLogic op (predGet g.preds (wB w)) (predGet g.preds (wC w))))

/-- The target of a relative branch, where it lies in the instruction store (R132). -/
def relTarget (g : Engine) (w : IWord) : Option Nat :=
  let t : Int := g.pc.toNat + (wSimm w).toInt
  if 0 ≤ t ∧ t ≤ 16383 then some t.toNat else none

/-- A branch: `cond` decides with the guard whether it is taken, `upd` changes the tiller (`taken` or not), `tgt` is its
target (R126, R130, R132). An illegal target of a taken branch changes nothing. -/
def branch (op : Nat) (cond : Engine → IWord → Bool) (upd : Engine → IWord → Bool → Engine)
    (tgt : Engine → IWord → Option Nat) : State → Nat → State :=
  dispatch op noMore noFeet (fun s e w =>
    let g := engGet s e
    let taken := guardOf g.preds w && cond g w
    let s' := engPut s e ((upd g w taken).count 1)
    if taken then
      match tgt g w with
      | some t => .jump s' t
      | none => .trap s 1 0
    else .go s')

/-! The own window (R131). -/

/-- The store and the byte offset in it of an own-window offset, if it is legal. -/
def ownPlace (o : W64) : Option (Bool × Nat) :=
  if o.toNat % 8 ≠ 0 ∨ 0x1C00000 ≤ o.toNat then none
  else if o.toNat < 0x1800000 then some (false, o.toNat) else some (true, o.toNat - 0x1800000)
/-- The own-window offset s[a] + sext(IMM). -/
def ownOffset (g : Engine) (w : IWord) : W64 := g.sreg (wB w) + wSimm w
/-- The footprint of an s.ld or s.st (R500). -/
def ownFeet (st : Bool) (s : State) (e : Nat) (w : IWord) : List Foot × List Foot :=
  match ownPlace (ownOffset (engGet s e) w) with
  | none => ([], [])
  | some (acc, o) => if st then ([], [⟨acc, o, o + 8⟩]) else ([⟨acc, o, o + 8⟩], [])
/-- A row of tile SRAM in which an uncorrectable error was found awaits the next self-test of its tile, its contents unspecified until
then (R461). (DEDUCED, log entry 45) -/
def rowFails (s : State) (a : Nat) : State :=
  let o := a % 0x02000000
  match tileOf s ((a - 2 ^ 40) / 0x02000000) with
  | some t =>
    if o < 0x1800000 then
      let x := tblGet (fun _ => Tile.init) s.inv.tiles t
      let s := { s with inv := { s.inv with
        tiles := tblSet (fun _ => Tile.init) s.inv.tiles t { x with ueRows := insertAsc (o / 256) x.ueRows } } }
      memForget s (a / 256 * 256) (a / 256 * 256 + 256)
    else s
  | none => s
/-- s.ld: waits for every destination footprint over the 8 bytes; `err` says that its read finds an uncorrectable error (R131, R153).
The record of an illegal offset carries the offset. (DESIGN CHOICE, log entry 138) -/
def doLd (err : Bool) (s : State) (e : Nat) (w : IWord) : Ctl :=
  let g := engGet s e
  match ownPlace (ownOffset g w) with
  | none => .trap s 3 (ownOffset g w)
  | some (acc, o) =>
    if g.uncompleted.any (fun i => i.dsts.any (⟨acc, o, o + 8⟩ : Foot).meets) then .stall s
    else if err then .trap (rowFails s (storeAddr e acc o)) 6 (BitVec.ofNat 64 (storeAddr e acc o))
    else .go (engPut s e ((g.setSreg (wA w) (BitVec.ofNat 64 (memNat s (storeAddr e acc o) 8))).count 1))
/-- s.st: waits for every footprint over the 8 bytes (R131). (DESIGN CHOICE, log entry 138) -/
def doSt (s : State) (e : Nat) (w : IWord) : Ctl :=
  let g := engGet s e
  match ownPlace (ownOffset g w) with
  | none => .trap s 3 (ownOffset g w)
  | some (acc, o) =>
    if g.uncompleted.any (fun i => (i.srcs ++ i.dsts).any (⟨acc, o, o + 8⟩ : Foot).meets) then .stall s
    else .go (memPut (engPut s e (g.count 1)) (storeAddr e acc o) (leBytes 8 (g.sreg (wA w)).toNat))

/-! Handles (R134, R135). -/

/-- hd.set. -/
def hdSetVal (a b : W64) : BitVec 128 := withValid ((a.setWidth 128) ||| ((b.setWidth 128 &&& (2 ^ 63 - 1)) <<< 64))
/-- hd.base: the copy with its BASE moved; a sum outside 19 bits leaves VALID 0 and a BASE that the spec does not state.
(DEDUCED, log entry 31) -/
def hdBaseVal (d : BitVec 128) (a : W64) (free : W64) : BitVec 128 :=
  let b : Int := fld d 0 19 + a.toInt
  if 0 ≤ b ∧ b < 2 ^ 19 then withValid (setFld d 0 19 b.toNat) else putBit (setFld d 0 19 (fld free 0 19)) 127 false
/-- Is a value of hd.shape within 1 to 65,535? -/
def shapeOk (v : W64) : Bool := decide (1 ≤ v.toNat ∧ v.toNat ≤ 65535)
/-- hd.shape: the copy with new ROWS and COLS; a value out of range leaves VALID 0 and a field the spec does not state. -/
def hdShapeVal (d : BitVec 128) (r c : W64) (free : W64) : BitVec 128 :=
  let d := setFld d 32 16 (if shapeOk r then r.toNat else fld free 0 16)
  let d := setFld d 48 16 (if shapeOk c then c.toNat else fld free 16 16)
  if shapeOk r && shapeOk c then withValid d else putBit d 127 false

/-! Deferred increments and waits (R146 to R150). -/

/-- May another deferred increment be queued (R146)? -/
def incRoom (g : Engine) : Bool := decide (g.incs.length < 16)
/-- Queues an increment of t[t] of engine `x` (R146). -/
def queueInc (g : Engine) (t x : Nat) : Engine := { g with incs := g.incs ++ [⟨t, x, g.ord⟩] }

/-- sy.inc. -/
def doSyInc (s : State) (e : Nat) (w : IWord) : Ctl :=
  let g := engGet s e
  let x := (g.sreg (wB w)).toNat
  if !(decide (x < 64) && present s x) then trapFree s 3
  else if !incRoom g then .stall s
  else .go (engPut s e ((queueInc g (wA w) x).count 1))

/-- sy.tset (R147). -/
def doTset (s : State) (e : Nat) (w : IWord) : Ctl :=
  .go (engMod s e (fun g => (g.setTok (wA w) ((g.sreg (wB w)).setWidth 32)).count 1))

/-- A wait that is not met counts in SYNC_WAIT (R148). -/
def syncWait (s : State) (e : Nat) : Ctl := .stall (engMod s e (fun g => g.count 3))

/-- sy.twait. -/
def doTwait (s : State) (e : Nat) (w : IWord) : Ctl :=
  let g := engGet s e
  if (g.sreg (wB w)).toNat % 2 ^ 32 ≤ (g.tok (wA w)).toNat then .go (engPut s e (g.count 1)) else syncWait s e

/-- sy.wait: events that R58 puts first come first. -/
def doWait (s : State) (e : Nat) (w : IWord) : Ctl :=
  let g := engGet s e
  if (g.sreg (wB w)).toNat ≤ s.beat.now.toNat ∧ workDue s = false then .go (engPut s e (g.count 1)) else syncWait s e

/-- Queues increments for the set bits of a mask from engine `x` up, while there is room; answers what is left. -/
def queueBar (g : Engine) (t : Nat) : List Nat → Engine × W64
  | [] => (g, 0)
  | x :: l => if incRoom g then queueBar (queueInc g t x) t l else (g, BitVec.ofNat 64 ((x :: l).foldl (fun a i => a + 2 ^ i) 0))

/-- sy.bar (R149): the increments in ascending engine order, as far as there is room, then the wait. -/
def doBar (s : State) (e : Nat) (w : IWord) : Ctl :=
  let g := engGet s e
  let mask := g.bar.getD (g.sreg (wB w))
  if g.bar.isNone && (setBits 64 mask.toNat).any (fun x => !present s x) then trapFree s 3
  else
    let (g, left) := queueBar g (wA w) (setBits 64 mask.toNat)
    if left != 0 then .stall (engPut s e { g with bar := some left })
    else if (g.sreg (wC w)).toNat % 2 ^ 32 ≤ (g.tok (wA w)).toNat then .go (engPut s e ({ g with bar := none }.count 1))
    else .stall (engPut s e ({ g with bar := some 0 }.count 3))

/-- sy.drain (R150): have the queues of the mask completed every earlier instruction? -/
def drainedOf (g : Engine) (m : Nat) : Bool :=
  [EngQueue.mm, .vx, .mv, .sf].all (fun q =>
    !(m.testBit (quNum q)) || ((g.queue q).isEmpty && g.exec.all (fun x => x.qu != q)))
/-- sy.drain. -/
def doDrain (s : State) (e : Nat) (w : IWord) : Ctl :=
  let g := engGet s e
  if drainedOf g (wImm w) then .go (engPut s e (g.count 1)) else .stall s

/-- hn.phase (R152). -/
def doPhase (s : State) (e : Nat) (w : IWord) : Ctl :=
  let g := engGet s e
  .go (armHint (engPut s e (g.count 1)) (wImm w % 256) (g.sreg (wB w)) ((g.sreg (wC w)).toNat % 2 ^ 32))

/-- A deferred increment takes effect (R75, R146): the oldest, once every instruction dispatched before it that writes has
completed. -/
def applyInc (s : State) (e : Nat) : State :=
  let g := engGet s e
  match g.incs with
  | [] => s
  | i :: r =>
    if g.uncompleted.any (fun q => decide (q.ord < i.ord)) then s
    else tokInc (engPut s e { g with incs := r }) i.target i.tok none

/-! Queued instructions. -/

/-- What dispatch finds for a queued instruction: the exception code of its checks (0: none), its source and destination
footprints (R70). -/
structure Plan where
  code : Nat
  srcs : List Foot
  dsts : List Foot
  deriving DecidableEq, Repr

/-- Dispatch into a queue (R64, R70, R127, R128). -/
def enqueue (plan : State → Nat → IWord → Plan) (q : EngQueue) (s : State) (e : Nat) (w : IWord) : Ctl :=
  let g := engGet s e
  let p := plan s e w
  if p.code ≠ 0 then .trap s p.code 0
  else if 32 ≤ (g.queue q).length then .stall (engPut s e (g.count 2))
  else
    let i : QInstr :=
      { ord := g.ord, idx := g.pc, word := w, hs := g.handles, rs := g.sregs,
        tokc := if w.getLsbD 12 then some (fld w 13 6, (g.sreg (fld w 19 5)).setWidth 32) else none,
        srcs := p.srcs, dsts := p.dsts, taint := [] }
    .go (engPut s e { g.setQueue q (g.queue q ++ [i]) with ord := g.ord + 1 })

/-- The dispatch of a queued instruction. -/
def dispatchQ (op : Nat) (more : IWord → Bool) (plan : State → Nat → IWord → Plan) (q : EngQueue) : State → Nat → State :=
  dispatch op more (fun s e w => let p := plan s e w; if p.code = 0 then (p.srcs, p.dsts) else ([], [])) (enqueue plan q)

end Sys2Proof.Machine
end

