-- ==== Sys2Proof/Machine/Move.lean ====
section
/-!
DEFINITION. Movement instructions (R136 to R142, R262 to R264): the checks at dispatch, the checks at issue, the transfer.
-/

namespace Sys2Proof.Machine

/-! Named slabs. -/

/-- The slab of handle `i` among captured or current handles. -/
def slabAt (hs : Tbl (BitVec 128)) (i : Nat) : Slab := slabOf (tblGet (fun _ => 0) hs i)
/-- The scale slab or codebook of a slab (R66). -/
def scaleAt (hs : Tbl (BitVec 128)) (x : Slab) : Slab := slabAt hs x.scaleH
/-- A data slab with its scale slab or codebook. -/
def operAt (hs : Tbl (BitVec 128)) (i : Nat) : Oper := ⟨slabAt hs i, scaleAt hs (slabAt hs i)⟩
/-- Is the named slab VALID, and the scale slab or codebook it names as R106 to R110 ask (R68, R108)? -/
def namedOk (hs : Tbl (BitVec 128)) (i : Nat) : Bool :=
  let x := slabAt hs i
  x.valid && (!x.needsScale || scaleOk x (scaleAt hs x))
/-- The footprint of the scale slab or codebook of a named slab, where it has one (R108). -/
def scaleFeet (hs : Tbl (BitVec 128)) (i : Nat) : List Foot :=
  let x := slabAt hs i
  if x.needsScale then [scaleFoot x (scaleAt hs x)] else []
/-- The footprint of a named slab. -/
def footAt (hs : Tbl (BitVec 128)) (i : Nat) : Foot := (slabAt hs i).foot
/-- A plan that raises SLAB unless `ok`. -/
def planIf (ok : Bool) (srcs dsts : List Foot) : Plan := if ok then ⟨0, srcs, dsts⟩ else ⟨2, [], []⟩

/-- The byte runs of a slab, with the start of each relative to the slab's start, for a stride in bytes. -/
def Slab.runs (x : Slab) (stride : Nat) : List (Nat × Nat) :=
  (List.range x.rows).flatMap (fun r =>
    if x.tiled then (List.range (cdiv x.cols 64)).map (fun t =>
      ((r / 64) * stride + t * (512 * x.bits) + (r % 64) * (8 * x.bits), min 64 (x.cols - 64 * t) * x.bits / 8))
    else [(r * stride, x.rowBytes)])

/-- The codes of a slab, row by row. -/
def codesOf (s : State) (e : Nat) (x : Slab) : List Nat := x.cells.map (fun p => elemGet s e x p.1 p.2)
/-- Writes a code for every element: `f row column`. -/
def putCodes (s : State) (e : Nat) (x : Slab) (f : Nat → Nat → Nat) : State :=
  x.cells.foldl (fun s p => elemPut e x s p.1 p.2 (f p.1 p.2)) s

/-! Checks at dispatch. -/

/-- Formats that mv.tload and mv.tcopy take (R141). -/
def transposable (x : Slab) : Bool := (x.bits == 4 || x.bits == 8 || x.bits == 16 || x.bits == 32) && x.scal == 0

/-- mv.load, mv.store (R136). -/
def planLoad (s : State) (e : Nat) (w : IWord) : Plan :=
  let hs := (engGet s e).handles
  planIf (namedOk hs (wA w)) (scaleFeet hs (wA w)) [footAt hs (wA w)]
/-- mv.store. -/
def planStore (s : State) (e : Nat) (w : IWord) : Plan :=
  let hs := (engGet s e).handles
  planIf (namedOk hs (wA w)) (footAt hs (wA w) :: scaleFeet hs (wA w)) []
/-- mv.tload (R141). -/
def planTload (s : State) (e : Nat) (w : IWord) : Plan :=
  let hs := (engGet s e).handles
  let x := slabAt hs (wA w)
  planIf (namedOk hs (wA w) && transposable x && x.rows * x.bits % 8 == 0) (scaleFeet hs (wA w)) [x.foot]
/-- mv.copy (R141). -/
def planCopy (s : State) (e : Nat) (w : IWord) : Plan :=
  let hs := (engGet s e).handles
  let d := slabAt hs (wA w)
  let x := slabAt hs (wB w)
  planIf (namedOk hs (wA w) && namedOk hs (wB w) && d.fmt == x.fmt && d.scal == x.scal && d.rows == x.rows && d.cols == x.cols)
    (x.foot :: scaleFeet hs (wB w) ++ scaleFeet hs (wA w)) [d.foot]
/-- mv.tcopy (R141). -/
def planTcopy (s : State) (e : Nat) (w : IWord) : Plan :=
  let hs := (engGet s e).handles
  let d := slabAt hs (wA w)
  let x := slabAt hs (wB w)
  planIf (namedOk hs (wA w) && namedOk hs (wB w) && transposable d && transposable x && d.fmt == x.fmt && d.rows == x.cols
      && d.cols == x.rows) (x.foot :: scaleFeet hs (wB w) ++ scaleFeet hs (wA w)) [d.foot]
/-- The rules of mv.gather and mv.scatter (R140). -/
def gatherOk (hs : Tbl (BitVec 128)) (w : IWord) (pitch : W64) : Bool :=
  let d := slabAt hs (wA w)
  let x := slabAt hs (wD w)
  namedOk hs (wA w) && namedOk hs (wD w) && x.fmt == 13 && !x.acc && x.cols == 1 && x.rows == d.rows && !d.tiled && !d.acc
    && d.scal == 0 && d.rowBytes % 8 == 0 && decide (8 ≤ d.rowBytes ∧ d.rowBytes ≤ 64) && pitch.toNat % 8 == 0
/-- mv.gather. -/
def planGather (s : State) (e : Nat) (w : IWord) : Plan :=
  let g := engGet s e
  planIf (gatherOk g.handles w (g.sreg (wC w))) (footAt g.handles (wD w) :: scaleFeet g.handles (wA w)) [footAt g.handles (wA w)]
/-- mv.scatter. -/
def planScatter (s : State) (e : Nat) (w : IWord) : Plan :=
  let g := engGet s e
  planIf (gatherOk g.handles w (g.sreg (wC w)))
    ([footAt g.handles (wA w), footAt g.handles (wD w)] ++ scaleFeet g.handles (wA w)) []

/-! Addresses (R137). -/

/-- Register `i` as captured at dispatch. -/
def QInstr.reg (q : QInstr) (i : Nat) : W64 := sregOf q.rs i
/-- The slab that field A names. -/
def QInstr.slabA (q : QInstr) : Slab := slabAt q.hs (wA q.word)
/-- The slab that field B names. -/
def QInstr.slabB (q : QInstr) : Slab := slabAt q.hs (wB q.word)
/-- The slab that field D names. -/
def QInstr.slabD (q : QInstr) : Slab := slabAt q.hs (wD q.word)

/-- Where an interval of package memory lies: HBM, or one part of another engine's window (R137). -/
inductive Where' where
  | hbm
  | window (e : Nat) (acc : Bool) (off : Nat)
  | nowhere
  deriving DecidableEq, Repr

/-- The place of `[a, a + len)` for a movement instruction of engine `e`. -/
def placeOf (s : State) (e a len : Nat) : Where' :=
  if hbmOk s a len then .hbm
  else
    match decodeAddr s a with
    | .window x acc off =>
      if x ≠ e ∧ off + len ≤ (if acc then 0x400000 else 0x1800000) then .window x acc off else .nowhere
    | _ => .nowhere

/-- The length of the memory image of a movement instruction, and the least stride it asks for (R136, R141). -/
def imageLen (q : QInstr) : Nat × Nat :=
  let x := q.slabA
  let st := (q.reg (wC q.word)).toNat
  if wOp q.word = 0x82 then ((x.cols - 1) * st + x.rows * x.bits / 8, x.rows * x.bits / 8) else (x.extentAt st, x.minStride)
/-- The image of a load, store or transposed load, if its operands pass the checks at issue (R137). -/
def imageOf (s : State) (e : Nat) (q : QInstr) : Where' :=
  let a := (q.reg (wB q.word)).toNat
  let st := (q.reg (wC q.word)).toNat
  let l := imageLen q
  if a % 64 ≠ 0 ∨ st % 64 ≠ 0 ∨ st < l.2 ∨ 2 ^ 48 < a + l.1 then .nowhere else placeOf s e a l.1

/-- The index of row `i` of a gather or scatter: unspecified where an outside write met it (R77, R140). -/
def rowIndex (s : State) (e : Nat) (q : QInstr) (i : Nat) : Nat :=
  if q.hitElem q.slabD i 0 then freeCode (s.free + 1) i 32 else elemGet s e q.slabD i 0
/-- The free number that `rowIndex` used is used up. -/
def QInstr.used (q : QInstr) (s : State) : State := if q.taint.isEmpty then s else { s with free := s.free + 1 }
/-- The address of row `i` of a gather or scatter (R140). -/
def rowAddr (s : State) (e : Nat) (q : QInstr) (i : Nat) : Nat :=
  (q.reg (wB q.word)).toNat + rowIndex s e q i * (q.reg (wC q.word)).toNat
/-- The rows of a gather or scatter: HBM address and offset in tile SRAM. -/
def rowPairs (s : State) (e : Nat) (q : QInstr) : List (Nat × Nat) :=
  (List.range q.slabA.rows).map (fun i => (rowAddr s e q i, q.slabA.base * 64 + i * (q.slabA.stride * 64)))

/-- The address an issue check fails on, if one does (R137, R140, R262). -/
def issueFault (s : State) (e : Nat) (q : QInstr) : Option Nat :=
  let op := wOp q.word
  let a := (q.reg (wB q.word)).toNat
  if op = 0x80 ∨ op = 0x81 ∨ op = 0x82 then
    (if imageOf s e q = .nowhere then some a else none)
  else if op = 0x85 ∨ op = 0x86 then
    if a % 8 ≠ 0 then some a
    else ((rowPairs s e q).find? (fun p => !hbmOk s p.1 q.slabA.rowBytes)).map (fun p => p.1)
  else none

/-- Does a movement instruction read HBM (its data come with HBM_READ_RETURN)? -/
def readsHbm (q : QInstr) : Bool :=
  let op := wOp q.word
  op == 0x85 || ((op == 0x80 || op == 0x82) && decide ((q.reg (wB q.word)).toNat < 2 ^ 40))
/-- Does a movement instruction write HBM (acknowledged with HBM_WRITE_ACK)? -/
def writesHbm (q : QInstr) : Bool :=
  let op := wOp q.word
  op == 0x86 || (op == 0x81 && decide ((q.reg (wB q.word)).toNat < 2 ^ 40))

/-! Transfers. -/

/-- What a transfer does: it is done, or it fails with an exception code at an address. -/
inductive Xfer where
  | done (s : State)
  | fail (s : State) (code : Nat) (addr : Nat)

/-- The memory runs of an instruction and, beside each, its place in the store: `(memory address, store offset, bytes)`.
mv.tload has no place in the store for a whole run (0). -/
def transferRuns (s : State) (e : Nat) (q : QInstr) : List (Nat × Nat × Nat) :=
  let op := wOp q.word
  let x := q.slabA
  let a := (q.reg (wB q.word)).toNat
  let st := (q.reg (wC q.word)).toNat
  if op = 0x82 then (List.range x.cols).map (fun c => (a + c * st, 0, x.rows * x.bits / 8))
  else if op = 0x85 ∨ op = 0x86 then (rowPairs s e q).map (fun p => (p.1, p.2, x.rowBytes))
  else (x.runs st).zipWith (fun m d => (a + m.1, x.base * 64 + d.1, m.2)) (x.runs (x.stride * 64))

/-- The bytes of a load, gather or transposed load written into the slab, as memory `m` holds them. Where an outside write met the
destination, or the index of a gathered row, they are unspecified (R77). -/
def fillSlab (m : Mem) (s : State) (e : Nat) (q : QInstr) : State :=
  let x := q.slabA
  if wOp q.word = 0x82 then
    let a := (q.reg (wB q.word)).toNat
    let st := (q.reg (wC q.word)).toNat
    let s0 := { s with mem := m }
    freeHit (putCodes s e x (fun r c => readBits s0 (a + c * st) (r * x.bits) x.bits)) e q x (fun _ _ => false)
  else
    let l := transferRuns s e q
    freeHit (l.foldl (fun s p => memPut s (storeAddr e x.acc p.2.1) (memRead m p.1 p.2.2)) (q.used s)) e q x
      (fun r _ => wOp q.word == 0x85 && q.hitElem q.slabD r 0)

/-- Do reads by die `d` of the line of address `a` look up its die cache (R41, R265)? -/
def viaCache (s : State) (d a : Nat) : Bool := stackDie s (stackOf s a) != d && !(placeGet s (a / 2 ^ 30)).nc
/-- A read of line `l` by die `d` looks up the die cache where R41 permits: the lookup and a hit are counted, and a hit becomes the
most recently used line (R265). -/
def cacheLookup (d : Nat) (s : State) (l : Nat) : State :=
  if !viaCache s d (l * 128) then s
  else
    let s := cacheCount s d 0 1
    if (cacheGet s d).contains l then cachePut (cacheCount s d 1 1) d ((cacheGet s d).filter (fun x => x != l) ++ [l]) else s
/-- The lines of a range looked up. -/
def cacheReads (d : Nat) (s : State) (a len : Nat) : State :=
  (List.range ((a + len + 127) / 128 - a / 128)).foldl (fun s i => cacheLookup d s (a / 128 + i)) s
/-- The uncorrectable words that a read of `[a, a + len)` by die `d` finds: a line that its die cache holds is not read at its home, and
the fill of one that misses reads the whole sector (R265, R272). -/
def loadFinds (s : State) (d a len : Nat) : List Nat :=
  s.ms.bad.filter (fun w =>
    if viaCache s d w then
      [w / 256 * 2, w / 256 * 2 + 1].any (fun n => decide (a < n * 128 + 128) && decide (n * 128 < a + len) && !(cacheGet s d).contains n)
    else decide (a < w + 8) && decide (w < a + len))
/-- An uncorrectable word that a read by die `d` found is noted, once where the fill of its sector has noted it (R272). -/
def noteLoad (d : Nat) (s : State) (w : Nat) : State :=
  if s.coh.failed.contains (d, w / 256) then s else noteUe s w

/-- The reads of an instruction from HBM return (R138, R139, R272). Where one failed, the bytes it would have brought are unspecified,
and of the others those that a free choice picks: the rest were written before. -/
def readTransfer (s : State) (e : Nat) (q : QInstr) : Xfer :=
  let l := transferRuns s e q
  let d := e / 16
  let finds (p : Nat × Nat × Nat) : List Nat := if wOp q.word = 0x85 then badIn s p.1 p.2.2 else loadFinds s d p.1 p.2.2
  let out := l.find? (fun p => !hbmOk s p.1 p.2.2)
  let here := l.filter (fun p => hbmOk s p.1 p.2.2)
  let bad := here.flatMap finds |>.eraseDups
  let lost := here.filter (fun p => touchesLost s p.1 p.2.2)
  let m := (l.filter (fun p => !hbmOk s p.1 p.2.2) ++ lost).foldl (fun m p => memFill m p.1 (p.1 + p.2.2) (s.free + 1)) s.mem
  let m := bad.foldl (fun m w => memFill m (if wOp q.word = 0x85 then w else w / 256 * 256)
    (if wOp q.word = 0x85 then w + 8 else w / 256 * 256 + 256) (s.free + 1)) m
  let s' := bad.foldl (if wOp q.word = 0x85 then noteUe else noteLoad d) s
  let s' := { s' with coh := { s'.coh with failed := s'.coh.failed.filter (fun x => !(x.1 == d && bad.any (fun w => w / 256 == x.2))) } }
  let s' := if wOp q.word = 0x85 then s' else here.foldl (fun s r => cacheReads d s r.1 r.2.2) s'
  if out.isNone && bad.isEmpty && lost.isEmpty then .done (fillSlab s.mem s' e q)
  else
    let s' := freeSome (fillSlab m { s' with free := s'.free + 1 } e q) e q.slabA (fun _ _ => true)
    match out with
    | some p => .fail s' 3 (refusedAt s p.1 p.2.2)
    | none => .fail s' 6 ((bad ++ lost.map (fun p => p.1)).headD 0)

/-- One run written to HBM: the bytes of the store, unspecified where an outside write met them (R77); `part` says that of those a free
choice picks are unspecified too, since the instruction ended before it wrote them all (R139). -/
def writeRun (e : Nat) (q : QInstr) (part : Bool) (s : State) (p : Nat × Nat × Nat) : State :=
  let (bs, s) := q.bytesOf s e q.slabA.acc p.2.1 p.2.2
  let (bs, s) := if part then someBytes s bs else (bs, s)
  hbmWrite s p.1 bs

/-- The writes of an instruction are accepted and acknowledged by their homes (R42, R138, R139). A word that is uncorrectable and
covered in part stays as it is, and the rest of the write is applied (R273); a lost stack takes none (R15). -/
def writeTransfer (s : State) (e : Nat) (q : QInstr) : Xfer :=
  let l := transferRuns s e q
  let here := l.filter (fun p => hbmOk s p.1 p.2.2)
  let bad := here.flatMap (fun p => (badIn s p.1 p.2.2).filter (fun w => decide (w < p.1) || decide (p.1 + p.2.2 < w + 8)))
  let lost := here.filter (fun p => touchesLost s p.1 p.2.2)
  let s' := here.foldl (fun s p => notePartial s p.1 p.2.2) (q.used s)
  let out := l.find? (fun p => !hbmOk s p.1 p.2.2)
  let s' := (here.filter (fun p => !touchesLost s p.1 p.2.2)).foldl (writeRun e q out.isSome) s'
  match out with
  | some p => .fail s' 3 (refusedAt s p.1 p.2.2)
  | none =>
    match bad ++ lost.map (fun p => p.1) with
    | [] => .done s'
    | a :: _ => .fail s' 6 a

/-- Must the homes hold the instruction's writes for a full mirror sender (R405)? -/
def writeHeld (s : State) (e : Nat) (q : QInstr) : Bool := (transferRuns s e q).any (fun p => mirHolds s p.1 p.2.2)

/-- A transfer with another engine's window: a load or a store (R77, R137). -/
def windowTransfer (s : State) (e : Nat) (q : QInstr) : Xfer :=
  match imageOf s e q with
  | .window x acc off =>
    let a := (q.reg (wB q.word)).toNat
    if wOp q.word = 0x81 then
      .done ((transferRuns s e q).foldl (fun s p =>
        let (bs, s) := q.bytesOf s e q.slabA.acc p.2.1 p.2.2
        windowWrite s x acc (off + (p.1 - a)) bs) s)
    else .done (fillSlab s.mem s e q)
  | _ => .fail (if wOp q.word = 0x81 then s else slabForget s e q.slabA) 3 (q.reg (wB q.word)).toNat

/-- mv.copy and mv.tcopy: the codes of the source, read before any is written. (DEDUCED, log entry 37) -/
def copySlab (s : State) (e : Nat) (q : QInstr) : State :=
  let x := q.slabB
  let s0 := s
  if wOp q.word = 0x83 then freeHit (putCodes s e q.slabA (fun r c => elemGet s0 e x r c)) e q q.slabA (q.hitElem x)
  else freeHit (putCodes s e q.slabA (fun r c => elemGet s0 e x c r)) e q q.slabA (fun r c => q.hitElem x c r)

end Sys2Proof.Machine
end

