-- ==== Sys2Proof/Machine/Matrix.lean ====
section
/-!
DEFINITION. Matrix instructions (R81 to R94, R111, R112, R156 to R163) and their tile SRAM read claims (R184).
-/

namespace Sys2Proof.Machine

/-- GMASK (Table 8-1). -/
def mmGmask (w : IWord) : Nat := fld w 88 4
/-- ACC. -/
def mmAcc (w : IWord) : Bool := w.getLsbD 92
/-- CHEN. -/
def mmChen (w : IWord) : Bool := w.getLsbD 116
/-- The (C, A, B) handles of group `g`. -/
def mmGroup (w : IWord) (g : Nat) : Nat × Nat × Nat :=
  if g = 0 then (wA w, wB w, wC w)
  else if g = 1 then (fld w 64 4, fld w 68 4, fld w 72 4)
  else if g = 2 then (fld w 76 4, fld w 80 4, fld w 84 4)
  else (fld w 96 4, fld w 100 4, fld w 104 4)
/-- The groups that have an operand set. -/
def mmGroups (w : IWord) : List Nat := setBits 4 (mmGmask w)
/-- The values of GMASK that an opcode allows (Table 8-2). -/
def gmaskAllowed (op m : Nat) : Bool :=
  decide (1 ≤ m ∧ m < (if op = 0xC1 then 4 else if op = 0xC2 then 16 else 2))
/-- The encoding rules of R157. -/
def mmMore (w : IWord) : Bool :=
  gmaskAllowed (wOp w) (mmGmask w) && (mmChen w || fld w 117 4 == 0)
    && ([0, 1, 2, 3].all (fun g => (mmGmask w).testBit g || mmGroup w g == (0, 0, 0)))

/-- Table 8-3: may A have format `a` and B format `b`? -/
def mmPair (a b : Nat) : Bool :=
  let low := [6, 7, 8, 14]
  if a = 6 ∨ a = 7 ∨ a = 8 then low.contains b
  else if a = 4 ∨ a = 5 then ([4, 5] ++ low).contains b
  else if a = 2 ∨ a = 3 then ([2, 3, 4, 5] ++ low).contains b
  else if a = 1 then b == 1
  else if a = 9 ∨ a = 10 then b == 9 || b == 10
  else false
/-- The lane width of a format (Table 5-1). -/
def laneWidth (f : Nat) : Nat :=
  if f = 1 then 16 else if f = 2 ∨ f = 3 then 32 else if f = 4 ∨ f = 5 ∨ f = 9 then 64 else 128
/-- The format that C must have (R84, R158). -/
def mmCFormat (a b : Slab) : Nat := if mmPair 9 a.fmt && a.scal == 0 && b.scal == 0 then 13 else 0
/-- Rows, inner length and columns of a group: M, K, N. -/
def mmN (op : Nat) (b : Slab) : Nat := if op = 0xC4 then b.rows else b.cols

/-- Do the blocks of a scaled operand run along K (R108)? `row` for A and for the B of mm.full.t. -/
def kBlocks (hs : Tbl (BitVec 128)) (x : Slab) (row : Bool) : Bool :=
  x.scal == 0 || (if row then rowBlocks x (scaleAt hs x) else colBlocks x (scaleAt hs x))

/-- The rules of R158 and R159 for one group. -/
def mmGroupOk (hs : Tbl (BitVec 128)) (w : IWord) (g : Nat) : Bool :=
  let op := wOp w
  let h := mmGroup w g
  let c := slabAt hs h.1
  let a := slabAt hs h.2.1
  let b := slabAt hs h.2.2
  namedOk hs h.1 && namedOk hs h.2.1 && namedOk hs h.2.2 && !a.acc && !b.acc && c.acc && c.scal == 0
    && a.fmt == fld w 108 4 && b.fmt == fld w 112 4
    && (if op = 0xC5 then a.fmt == 0 && b.fmt == 0 && a.scal == 0 && b.scal == 0 && c.fmt == 0
        else mmPair a.fmt b.fmt && c.fmt == mmCFormat a b)
    && (if op = 0xC4 then b.cols == a.cols && b.tiled else b.rows == a.cols)
    && c.rows == a.rows && c.cols == mmN op b
    && decide (a.rows ≤ (if op = 0xC3 then 16 else 1024))
    && kBlocks hs a true && kBlocks hs b (op == 0xC4)

/-- The source footprints of a group: A, B, their scale slabs or codebook. -/
def mmSrcs (hs : Tbl (BitVec 128)) (w : IWord) (g : Nat) : List Foot :=
  let h := mmGroup w g
  [footAt hs h.2.1, footAt hs h.2.2] ++ scaleFeet hs h.2.1 ++ scaleFeet hs h.2.2
/-- The C footprint of a group. -/
def mmDst (hs : Tbl (BitVec 128)) (w : IWord) (g : Nat) : Foot := footAt hs (mmGroup w g).1
/-- The chaff mask slab. -/
def chaffSlab (hs : Tbl (BitVec 128)) (w : IWord) : Slab := slabAt hs (fld w 117 4)
/-- The rules of R159 and R162 for the chaff mask. -/
def chaffOk (hs : Tbl (BitVec 128)) (w : IWord) : Bool :=
  let x := chaffSlab hs w
  let h := mmGroup w 0
  let c := slabAt hs h.1
  !mmChen w || ((wOp w == 0xC0 || wOp w == 0xC4 || wOp w == 0xC5) && x.valid && x.fmt == 15 && !x.acc && x.scal == 0
    && decide (cdiv c.rows 64 ≤ x.rows) && decide (cdiv c.cols 64 ≤ x.cols))
/-- Is the array of the tile of engine `e` off (R96)? -/
def arrayOff (s : State) (e : Nat) : Bool :=
  match tileOf s e with
  | some t => (tblGet (fun _ => Tile.init) s.inv.tiles t).arrayOff
  | none => false

/-- The dispatch of a matrix instruction: SLAB by R82, R108, R158, R159 and R162, then UNIT_UNAVAILABLE by R96 (R154). -/
def planMm (s : State) (e : Nat) (w : IWord) : Plan :=
  let hs := (engGet s e).handles
  let gs := mmGroups w
  let chf := if mmChen w then [(chaffSlab hs w).foot] else []
  let srcs := gs.flatMap (mmSrcs hs w) ++ chf
  let dsts := gs.map (mmDst hs w)
  let apart := gs.all (fun g => !srcs.any (mmDst hs w g).meets
    && gs.all (fun k => k == g || !(mmDst hs w g).meets (mmDst hs w k)))
  if !(gs.all (mmGroupOk hs w) && chaffOk hs w && apart) then ⟨2, [], []⟩
  else if wOp w ≠ 0xC5 ∧ arrayOff s e = true then ⟨5, [], []⟩
  else ⟨0, srcs, dsts⟩

/-- Tile SRAM read claim of a matrix instruction (Table 9-1). -/
def mmClaim (hs : Tbl (BitVec 128)) (w : IWord) : Nat :=
  let fp6 := (mmGroups w).any (fun g =>
    [(slabAt hs (mmGroup w g).2.1).fmt, (slabAt hs (mmGroup w g).2.2).fmt].any (fun f => f == 6 || f == 7))
  let op := wOp w
  if op = 0xC0 ∨ op = 0xC3 then (if fp6 then 1024 else 768)
  else if op = 0xC4 then 512
  else if op = 0xC1 then (if fp6 then 2048 else 1280)
  else if op = 0xC5 then 256 else 2048

/-! Results. -/

/-- The k-th product pair of element (r, n) of a group. -/
def mmTerm (s : State) (e op : Nat) (a b : Oper) (r n k : Nat) : Fl × Fl :=
  (elemVal s e a r k, if op = 0xC4 then elemVal s e b n k else elemVal s e b k n)
/-- The integer value of an element of an unscaled INT4 or INT8 slab. -/
def intElem (s : State) (e : Nat) (x : Slab) (r c : Nat) : Int := sval x.bits (elemGet s e x r c)
/-- C after all passes of one element on the integer path: modulo 2^32 (R84). -/
def mmInt (s : State) (e op : Nat) (a b : Slab) (r n : Nat) (c0 : Nat) : Nat :=
  let sum := (List.range a.cols).foldl (fun (t : Int) k =>
    t + intElem s e a r k * (if op = 0xC4 then intElem s e b n k else intElem s e b k n)) 0
  ((c0 : Int) + sum).emod (2 ^ 32) |>.toNat
/-- C after all passes of one element: chunks of L products in ascending order, each rounded once and added (R83, R84, R111). -/
def mmArray (s : State) (e op : Nat) (a b : Oper) (r n : Nat) (c0 : Fl) : Fl :=
  let l := min (laneWidth a.sl.fmt) (laneWidth b.sl.fmt)
  (List.range (cdiv a.sl.cols l)).foldl (fun c i =>
    f32add c (dotChunk ((List.range (min l (a.sl.cols - i * l))).map (fun k => mmTerm s e op a b r n (i * l + k))))) c0
/-- C after mm.op32 of one element: fused steps in ascending k (R93). -/
def mmOuter (s : State) (e : Nat) (a b : Oper) (r n : Nat) (c0 : Fl) : Fl :=
  (List.range a.sl.cols).foldl (fun c k => f32fma (elemVal s e a r k) (elemVal s e b k n) c) c0

/-- The code of element (r, n) of C after the instruction. -/
def mmElem (s : State) (e : Nat) (w : IWord) (c : Slab) (a b : Oper) (r n : Nat) : Nat :=
  let old := if mmAcc w then elemGet s e c r n else 0
  if c.fmt = 13 then mmInt s e (wOp w) a.sl b.sl r n old
  else if wOp w = 0xC5 then toF32 (mmOuter s e a b r n (ofF32 old))
  else toF32 (mmArray s e (wOp w) a b r n (ofF32 old))

/-- Is element (r, n) of C written: its row selected by mm.thin (R161), its block not chaff (R162)? (DEDUCED, log entry 41) -/
def mmWrites (s : State) (e : Nat) (q : QInstr) (r n : Nat) : Bool :=
  (wOp q.word != 0xC3 || (q.reg (wD q.word)).getLsbD r)
    && !(mmChen q.word && elemGet s e (chaffSlab q.hs q.word) (r / 64) (n / 64) == 1)

/-- One group of a matrix instruction: every element is computed from the operands as they stood before. -/
def mmGroupRun (s0 : State) (e : Nat) (q : QInstr) (s : State) (g : Nat) : State :=
  let h := mmGroup q.word g
  let c := slabAt q.hs h.1
  c.cells.foldl (fun s p =>
    if mmWrites s0 e q p.1 p.2 then
      elemPut e c s p.1 p.2 (mmElem s0 e q.word c (operAt q.hs h.2.1) (operAt q.hs h.2.2) p.1 p.2)
    else s) s

/-- Has an outside write met what element (r, n) of C of group `g` is computed from, its bit of the chaff mask included (R77)? An
element that no mask bit lets be written depends on nothing (R162, R196). -/
def mmMet (s0 : State) (e : Nat) (q : QInstr) (g r n : Nat) : Bool :=
  let h := mmGroup q.word g
  let a := operAt q.hs h.2.1
  let b := operAt q.hs h.2.2
  (mmChen q.word && q.hitElem (chaffSlab q.hs q.word) (r / 64) (n / 64))
    || (mmWrites s0 e q r n && (q.hitElem (slabAt q.hs h.1) r n
      || (List.range a.sl.cols).any (fun k => q.hitOper a r k || (if wOp q.word = 0xC4 then q.hitOper b n k else q.hitOper b k n))))
/-- What outside writes leave of C of one group. -/
def mmForget (s0 : State) (e : Nat) (q : QInstr) (s : State) (g : Nat) : State :=
  if q.taint.isEmpty then s else freeCells s e (slabAt q.hs (mmGroup q.word g).1) (mmMet s0 e q g)
/-- The result of a matrix instruction; what outside writes met is unspecified (R77). -/
def runMm (s : State) (e : Nat) (q : QInstr) : State :=
  (mmGroups q.word).foldl (mmForget s e q) ((mmGroups q.word).foldl (mmGroupRun s e q) s)
/-- What a matrix instruction leaves that a read stopped with DATA: elements written before keep their new values, the rest of C is
unspecified, and nothing is written that a mask suppresses (R163). -/
def spoilMm (s : State) (e : Nat) (q : QInstr) : State :=
  (mmGroups q.word).foldl (fun t g => freeSome t e (slabAt q.hs (mmGroup q.word g).1) (mmWrites s e q)) (runMm s e q)

end Sys2Proof.Machine
end

