-- ==== Sys2Proof/Machine/Vector.lean ====
section
/-!
DEFINITION. Vector instructions (R113 to R122, R164 to R174, R177, R186, R187), conversion into every format, and the
vector unit's read claims (R165, R184). mv.cvt is here too, since it is vx.cvt on the movement engine (R142).
-/

namespace Sys2Proof.Machine

/-! Fields (Table 8-4). -/

/-- RND. -/
def vRnd (w : IWord) : Nat := fld w 64 2
/-- SAT. -/
def vSat (w : IWord) : Bool := w.getLsbD 66
/-- SEL. -/
def vSel (w : IWord) : Nat := fld w 68 5
/-- FLAG. -/
def vFlag (w : IWord) : Bool := w.getLsbD 73
/-- The encoding rules of the conversion fields: RND 3 is reserved, SR_* only with RND 2 (R113, R164). -/
def convMore (w : IWord) : Bool := vRnd w != 3 && (vRnd w == 2 || fld w 96 20 == 0)
/-- tb.der: without MULG the C field is 0 (R176). -/
def derMore (w : IWord) : Bool := convMore w && (vFlag w || wC w == 0)
/-- vx.opt: SEL is at most 27 (R174). -/
def optMore (w : IWord) : Bool := decide (vSel w ≤ 27)

/-! Conversion. -/

/-- The rounding of the element at row `i`, column `j` of the destination (R113, R119, R120). -/
def rndAt (s : State) (q : QInstr) (i j : Nat) : Rnd :=
  let w := q.word
  if vRnd w = 0 then .rne
  else if vRnd w = 1 then .rtz
  else
    let r (lo : Nat) : Nat := (q.reg (fld w lo 5)).toNat
    .sr (philoxWord (r 96) (r 101) s.rt.seedSlice.toNat (r 106 + i * r 111 + j) 0)
/-- The code in an unscaled destination of a value of format `src`: SAT acts on conversions that narrow (R113, R114). -/
def convCode (s : State) (q : QInstr) (d : Slab) (src i j : Nat) (x : Fl) : Nat :=
  encodeFmt d.fmt (rndAt s q i j) (vSat q.word && !holdsAll d.fmt src) x

/-- The exponent of the largest finite value of a scaled element format (R117). -/
def topExp (fmt : Nat) : Int := if fmt = 4 then 8 else if fmt = 5 then 15 else if fmt = 6 then 4 else if fmt = 9 then 0 else 2
/-- The largest finite value of a format with SCALING 2 (R118). -/
def topVal (fmt : Nat) : Fl :=
  if fmt = 4 then .ofInt 448 else if fmt = 5 then .ofInt 57344 else if fmt = 6 then .ofInt 28
  else if fmt = 7 then .fin false 15 2 else .ofInt 6
/-- The largest magnitude of a block. -/
def amax (l : List Fl) : Fl := l.foldl (fun m x => if m.lt x.abs then x.abs else m) .zero

/-- The scale code of a block and what its elements are divided by: none for a block of NaNs (R117, R118). -/
def blockScaleFor (fmt scal : Nat) (t : Fl) (l : List Fl) : Nat × Option Fl :=
  let bad := l.any (fun x => !x.isFin)
  if scal = 1 then
    if bad then (0xFF, none)
    else if l.all Fl.isZero then (0, some (.ofInt 1))
    else
      match amax l with
      | .fin _ n d =>
        let x := max (-127) (min 127 (flog2 n d - topExp fmt))
        let p := pow2Frac x
        ((x + 127).toNat, some (.fin false p.1 p.2))
      | _ => (0xFF, none)
  else if bad || !t.isFin || t.isZero then (0x7F, none)
  else if l.all Fl.isZero then (0, some (.ofInt 1))
  else
    let c := encodeFmt 12 .rne true ((amax l).divBy (t.abs.times (topVal fmt)))
    let c := if c = 0 then 1 else c
    (c, some ((decodeFmt 12 c).times t))

/-- The cells of block (i, j) of scale slab `sc` of data slab `x`: row blocks or column blocks (R106). -/
def blockCells (x sc : Slab) (i j : Nat) : List (Nat × Nat) :=
  if rowBlocks x sc then (List.range (min x.block (x.cols - j * x.block))).map (fun k => (i, j * x.block + k))
  else (List.range (min x.block (x.rows - i * x.block))).map (fun k => (i * x.block + k, j))

/-- Writes one block of a scaled destination: its scale, then each element divided and rounded once (R117, R118). -/
def putBlock (e : Nat) (q : QInstr) (d : Oper) (t : Fl) (val : Nat → Nat → Fl) (s : State) (b : Nat × Nat) : State :=
  let cs := blockCells d.sl d.sc b.1 b.2
  let k := blockScaleFor d.sl.fmt d.sl.scal t (cs.map (fun p => val p.1 p.2))
  let s := elemPut e d.sc s b.1 b.2 k.1
  cs.foldl (fun s p =>
    let v := match k.2 with
      | none => nanCode d.sl.fmt
      | some f =>
        let x := (val p.1 p.2).divBy f
        encodeFmt d.sl.fmt (rndAt s q p.1 p.2) (vSat q.word) (if d.sl.fmt = 9 then x.times (.ofInt 64) else x)
    elemPut e d.sl s p.1 p.2 v) s

/-- Writes a slab from exact values of format `src`, into its format and scaling. -/
def putVals (s : State) (e : Nat) (q : QInstr) (d : Oper) (val : Nat → Nat → Fl) (src : Nat := 0) : State :=
  if d.sl.scal = 0 then putCodes s e d.sl (fun i j => convCode s q d.sl src i j (val i j))
  else d.sc.cells.foldl (putBlock e q d (tensorScale s e d) val) s

/-! Sources. -/

/-- The index that a source is read at: 0 along a side of length 1 (R168). -/
def bcast (len i : Nat) : Nat := if len = 1 then 0 else i
/-- The exact value of the source element that element (i, j) reads. -/
def srcVal (s : State) (e : Nat) (o : Oper) (i j : Nat) : Fl := elemVal s e o (bcast o.sl.rows i) (bcast o.sl.cols j)
/-- The source element as an FP32 value (R169). -/
def srcF32 (s : State) (e : Nat) (o : Oper) (i j : Nat) : Fl := rnd32 (srcVal s e o i j)
/-- The code of an INT32 source element. -/
def srcCode (s : State) (e : Nat) (o : Oper) (i j : Nat) : Nat := elemGet s e o.sl (bcast o.sl.rows i) (bcast o.sl.cols j)

/-- Does a source fit the destination with broadcast (R168)? -/
def fits (x d : Slab) : Bool := (x.rows == d.rows || x.rows == 1) && (x.cols == d.cols || x.cols == 1)
/-- Do two descriptors agree as R168 asks of a destination that overlaps a source? -/
def sameShape (x d : Slab) : Bool :=
  x.acc == d.acc && x.base == d.base && x.tiled == d.tiled && x.stride == d.stride && x.rows == d.rows && x.cols == d.cols
    && x.bits == d.bits
/-- Formats a source of most instructions may have: not BIN1, not CB4 (R167). -/
def srcFmtOk (x : Slab) : Bool := x.fmt != 15 && x.fmt != 14
/-- Formats and scaling an unscaled destination may have (R167). -/
def dstFmtOk (d : Slab) : Bool := d.scal == 0 && d.fmt != 14 && d.fmt != 15 && d.fmt != 11 && d.fmt != 12
/-- An INT32 destination of an instruction that takes RND = SAT = 0 (R167). -/
def intDst (w : IWord) (d : Slab) : Bool := dstFmtOk d && d.fmt == 13 && vRnd w == 0 && !vSat w

/-- The source footprints of the handles of a list. -/
def srcFeet (hs : Tbl (BitVec 128)) (l : List Nat) : List Foot := l.flatMap (fun i => footAt hs i :: scaleFeet hs i)

/-- May a destination with descriptor `d` stand beside a source with descriptor `x` and footprint `f` (R168)? -/
def mayOverlap (d x : Slab) (f : Foot) : Bool := !d.foot.meets f || sameShape x d
/-- May a destination stand beside the scale slabs and codebooks of the sources of a list? -/
def scalesApart (hs : Tbl (BitVec 128)) (d : Slab) (l : List Nat) : Bool :=
  l.all (fun i => (scaleFeet hs i).all (mayOverlap d (scaleAt hs (slabAt hs i))))
/-- The plan of an elementwise instruction: destination handle, source handles, and a rule of its own (R167 to R169). -/
def planElem (s : State) (e : Nat) (d : Nat) (srcs : List Nat) (rule : Slab → List Slab → Bool) : Plan :=
  let hs := (engGet s e).handles
  let x := slabAt hs d
  let l := srcs.map (slabAt hs)
  let ok := namedOk hs d && srcs.all (namedOk hs) && dstFmtOk x && l.all srcFmtOk && l.all (fun y => fits y x)
    && l.all (fun y => mayOverlap x y y.foot) && scalesApart hs x srcs
    && rule x l
  planIf ok (srcFeet hs srcs) [x.foot]

/-- The plan of an instruction whose destination may overlap no source (R168). -/
def planApart (s : State) (e : Nat) (d : Nat) (srcs : List Nat) (rule : Slab → List Slab → Bool) : Plan :=
  let hs := (engGet s e).handles
  let x := slabAt hs d
  let ok := namedOk hs d && srcs.all (namedOk hs) && rule x (srcs.map (slabAt hs)) && !(srcFeet hs srcs).any x.foot.meets
  planIf ok (srcFeet hs srcs) [x.foot]

/-- All INT32, or none (R169). -/
def allOrNoneInt (x : Slab) (l : List Slab) : Bool := (x :: l).all (fun y => y.fmt == 13) || (x :: l).all (fun y => y.fmt != 13)
/-- No INT32 at all (R169). -/
def noInt (x : Slab) (l : List Slab) : Bool := (x :: l).all (fun y => y.fmt != 13)
/-- The source handles of an elementwise opcode, by its fields. -/
def elemSrcs (w : IWord) : List Nat :=
  let op := wOp w
  if op = 0xE3 then [wB w, wC w, wD w]
  else if op = 0xE6 ∨ op = 0xE7 ∨ op = 0xF2 then [wB w]
  else if op = 0xF3 then (if vFlag w then [wB w, wC w] else [wB w])
  else [wB w, wC w]
/-- vx.add to vx.rcp. -/
def planArith (s : State) (e : Nat) (w : IWord) : Plan :=
  planElem s e (wA w) (elemSrcs w) (if wOp w = 0xE3 ∨ wOp w = 0xE7 then noInt else allOrNoneInt)
/-- tb.fwd and tb.der. -/
def planTable (s : State) (e : Nat) (w : IWord) : Plan := planElem s e (wA w) (elemSrcs w) noInt

/-- vx.cvt and mv.cvt: the destination may be scaled, its scale slab then a destination, the header unit of SCALING 2 a
source (R167, R168). -/
def planCvt (s : State) (e : Nat) (w : IWord) : Plan :=
  let hs := (engGet s e).handles
  let d := slabAt hs (wA w)
  let x := slabAt hs (wB w)
  let sc := scaleAt hs d
  let scaled := d.scal != 0
  let dsts := d.foot :: (if scaled then [sc.foot] else [])
  let srcs := srcFeet hs [wB w] ++ (if d.scal = 2 then [⟨false, sc.base * 64 - 64, sc.base * 64⟩] else [])
  let ok := namedOk hs (wA w) && namedOk hs (wB w) && x.fmt != 15 && d.fmt != 14 && d.fmt != 15 && d.fmt != 11 && d.fmt != 12
    && x.rows == d.rows && x.cols == d.cols && mayOverlap d x x.foot && scalesApart hs d [wB w]
    && (d.scal != 2 || !(⟨false, sc.base * 64 - 64, sc.base * 64⟩ : Foot).meets d.foot)
    && (!scaled || (mayOverlap sc x x.foot && scalesApart hs sc [wB w]))
  planIf ok srcs dsts

/-- vx.rsum, vx.rmax (R170). -/
def planReduce (s : State) (e : Nat) (w : IWord) : Plan :=
  planApart s e (wA w) [wB w] (fun d l => dstFmtOk d && l.all srcFmtOk && d.cols == 1 && l.all (fun x => x.rows == d.rows))
/-- vx.nanc (R170). -/
def planNanc (s : State) (e : Nat) (w : IWord) : Plan :=
  planApart s e (wA w) [wB w] (fun d l => intDst w d && l.all srcFmtOk && d.cols == 1 && l.all (fun x => x.rows == d.rows))
/-- vx.popc (R170). -/
def planPopc (s : State) (e : Nat) (w : IWord) : Plan :=
  planApart s e (wA w) [wB w] (fun d l => intDst w d && d.cols == 1 && l.all (fun x => x.fmt == 15 && x.rows == d.rows))
/-- vx.hamm (R171). -/
def planHamm (s : State) (e : Nat) (w : IWord) : Plan :=
  let hs := (engGet s e).handles
  let x := slabAt hs (wB w)
  let y := slabAt hs (wC w)
  planApart s e (wA w) [wB w, wC w] (fun d _ => intDst w d && x.fmt == 15 && y.fmt == 15 && !x.acc && !y.acc
    && x.cols == y.cols && (x.cols == 64 || x.cols == 128) && d.rows == x.rows && d.cols == y.rows)
/-- vx.topk (R172). -/
def planTopk (s : State) (e : Nat) (w : IWord) : Plan :=
  planApart s e (wA w) [wB w] (fun d l => intDst w d && decide (d.cols ≤ 256)
    && l.all (fun x => (x.fmt == 0 || x.fmt == 13) && x.rows == d.rows && decide (d.cols ≤ x.cols)))
/-- vx.samp (R173). -/
def planSamp (s : State) (e : Nat) (w : IWord) : Plan :=
  let hs := (engGet s e).handles
  let x := slabAt hs (wB w)
  let y := slabAt hs (wC w)
  planApart s e (wA w) [wB w, wC w] (fun d _ => intDst w d && d.cols == 1 && x.fmt == 0 && x.rows == d.rows
    && y.fmt == 13 && y.rows == d.rows && y.cols == 8)
/-- vx.opt (R174). -/
def planOpt (s : State) (e : Nat) (w : IWord) : Plan :=
  let hs := (engGet s e).handles
  let x := slabAt hs (wA w)
  let g := slabAt hs (wB w)
  let m := slabAt hs (wC w)
  let v := slabAt hs (wD w)
  let ok := [wA w, wB w, wC w, wD w].all (namedOk hs) && x.fmt == 0 && m.fmt == 0 && v.fmt == 0 && (g.fmt == 0 || g.fmt == 2)
    && [g, m, v].all (fun y => y.rows == x.rows && y.cols == x.cols)
    && !x.foot.meets g.foot && !x.foot.meets m.foot && !x.foot.meets v.foot && !m.foot.meets g.foot && !m.foot.meets v.foot
    && !v.foot.meets g.foot
  planIf ok [g.foot, x.foot, m.foot, v.foot] [x.foot, m.foot, v.foot]
/-- tb.load (R175, R189). -/
def planTbLoad (s : State) (e : Nat) (w : IWord) : Plan :=
  let hs := (engGet s e).handles
  let x := slabAt hs (wB w)
  planIf (namedOk hs (wB w) && x.fmt == 13 && !x.tiled && !x.acc && decide (1568 ≤ x.rows * x.cols)) [x.foot] []
/-- gg.sum (R177). -/
def planGg (s : State) (e : Nat) (w : IWord) : Plan :=
  let hs := (engGet s e).handles
  let p := slabAt hs (wB w)
  let l := slabAt hs (wC w)
  planApart s e (wA w) [wB w, wC w] (fun d _ => dstFmtOk d && p.fmt == 0 && l.fmt == 13 && !l.tiled && !l.acc && l.cols == 1
    && decide (l.rows ≤ 1024))

/-! Read claims. -/

/-- Bytes of the elements of a slab. -/
def Slab.dataBytes (x : Slab) : Nat := (x.rows * x.cols * x.bits + 7) / 8
/-- Bytes read for a source: (from either store, from tile SRAM), with its scales, header and codebook (R165). -/
def readBytes (hs : Tbl (BitVec 128)) (i : Nat) : Nat × Nat :=
  let x := slabAt hs i
  let extra := if x.scal != 0 then (scaleAt hs x).dataBytes + (if x.scal = 2 then 4 else 0) else if x.fmt = 14 then 32 else 0
  (x.dataBytes + extra, (if x.acc then 0 else x.dataBytes) + extra)
/-- The claim for `st` bytes of tile SRAM over `n` issue cycles (R184). -/
def claimOf (st n : Nat) : Nat := min 2048 (cdiv st (256 * n) * 256)
/-- n_e (R165). -/
def issueCount (elems rd wr : Nat) : Nat := max (cdiv elems 256) (max (cdiv rd 2048) (cdiv wr 1024))
/-- The tile SRAM read claim of a vector instruction (R165, R184; vx.hamm reads 2,048 bytes in every cycle). -/
def vxClaim (hs : Tbl (BitVec 128)) (w : IWord) : Nat :=
  let op := wOp w
  let d := slabAt hs (wA w)
  let b := slabAt hs (wB w)
  let sum (l : List Nat) : Nat × Nat := l.foldl (fun t i => (t.1 + (readBytes hs i).1, t.2 + (readBytes hs i).2)) (0, 0)
  if op ≤ 0xE7 ∨ op = 0xF2 ∨ op = 0xF3 then
    let r := sum (elemSrcs w)
    claimOf r.2 (issueCount (d.rows * d.cols) r.1 d.dataBytes)
  else if op = 0xE8 then
    let r := sum [wB w]
    let h := if d.scal = 2 then 4 else 0
    let wr := d.dataBytes + (if d.scal != 0 then (scaleAt hs d).dataBytes else 0)
    claimOf (r.2 + h) (issueCount (d.rows * d.cols) (r.1 + h) wr * (if d.scal != 0 then 2 else 1))
  else if op = 0xE9 ∨ op = 0xEA ∨ op = 0xEB then
    let r := sum [wB w]
    claimOf r.2 (issueCount (b.rows * b.cols) r.1 d.dataBytes)
  else if op = 0xEC then claimOf (sum [wB w]).2 (cdiv b.dataBytes 2048)
  else if op = 0xED then 2048
  else if op = 0xEE then claimOf (sum [wB w]).2 (b.rows * (cdiv b.cols 256 * cdiv d.cols 32 + 16))
  else if op = 0xEF then claimOf (sum [wB w, wC w]).2 (b.rows * (2 * cdiv b.cols 256 + 64))
  else if op = 0xF0 then claimOf (sum [wA w, wB w, wC w, wD w]).2 (cdiv (d.rows * d.cols) 64)
  else if op = 0xF1 then claimOf 6272 4
  else
    let l := (slabAt hs (wC w)).rows
    let one := d.rows * d.cols * 4
    claimOf ((if b.acc then 0 else l * one) + 4 * l + (if vFlag w && !d.acc then d.dataBytes else 0))
      (cdiv l 512 + l * cdiv (d.rows * d.cols) 256)

/-! Results. -/

/-- The integer result of vx.add, sub, mul, max, min, abs on INT32 codes, modulo 2^32 (R169). -/
def intArith (op a b : Nat) : Nat :=
  let x := sval 32 a
  let y := sval 32 b
  let z := if op = 0xE0 then x + y else if op = 0xE1 then x - y else if op = 0xE2 then x * y
    else if op = 0xE4 then max x y else if op = 0xE5 then min x y else (x.natAbs : Int)
  z.emod (2 ^ 32) |>.toNat
/-- The FP32 result of an elementwise operation (R169). -/
def floatArith (op : Nat) (a b c : Fl) : Fl :=
  if op = 0xE0 then f32add a b
  else if op = 0xE1 then f32sub a b
  else if op = 0xE2 then f32mul a b
  else if op = 0xE3 then f32fma a b c
  else if op = 0xE4 then a.max2 b
  else if op = 0xE5 then a.min2 b
  else if op = 0xE6 then a.abs
  else f32div (.ofInt 1) a
/-- vx.add to vx.rcp. -/
def runArith (s : State) (e : Nat) (q : QInstr) : State :=
  let w := q.word
  let d := operAt q.hs (wA w)
  let a := operAt q.hs (wB w)
  let b := operAt q.hs (wC w)
  let c := operAt q.hs (wD w)
  if d.sl.fmt = 13 then putCodes s e d.sl (fun i j => intArith (wOp w) (srcCode s e a i j) (srcCode s e b i j))
  else putVals s e q d (fun i j => floatArith (wOp w) (srcF32 s e a i j) (srcF32 s e b i j) (srcF32 s e c i j))

/-- vx.cvt and mv.cvt: the exact source value is converted once (R113 to R118). -/
def runCvt (s : State) (e : Nat) (q : QInstr) : State :=
  let x := operAt q.hs (wB q.word)
  putVals s e q (operAt q.hs (wA q.word)) (elemVal s e x) (if x.sl.scal = 0 then x.sl.fmt else 16)

/-- The partial of lane `j`: columns j, j + 256, … in ascending order from the first (R186). -/
def lanePartial (f : Fl → Fl → Fl) (val : Nat → Fl) (cols j : Nat) : Option Fl :=
  if cols ≤ j then none
  else some ((List.range ((cols - j - 1) / 256)).foldl (fun t k => f t (val (j + 256 * (k + 1)))) (val j))
/-- One level of the combining tree: a node with one present input passes it on. -/
def treeLevel (f : Fl → Fl → Fl) : List (Option Fl) → List (Option Fl)
  | a :: b :: t => (match a, b with
      | some x, some y => some (f x y)
      | some x, none => some x
      | none, y => y) :: treeLevel f t
  | l => l
/-- `k` levels of the tree. -/
def treeLevels (f : Fl → Fl → Fl) : Nat → List (Option Fl) → List (Option Fl)
  | 0, l => l
  | k + 1, l => treeLevels f k (treeLevel f l)
/-- A row reduced in the order of R186. -/
def reduceRow (f : Fl → Fl → Fl) (val : Nat → Fl) (cols : Nat) : Fl :=
  ((treeLevels f 8 ((List.range 256).map (lanePartial f val cols))).headD none).getD .zero
/-- vx.rsum and vx.rmax (R170). -/
def runReduce (s : State) (e : Nat) (q : QInstr) : State :=
  let w := q.word
  let d := operAt q.hs (wA w)
  let a := operAt q.hs (wB w)
  let sum := wOp w = 0xE9
  if a.sl.fmt = 13 ∧ d.sl.fmt = 13 then
    putCodes s e d.sl (fun i _ =>
      let l := (List.range a.sl.cols).map (fun c => sval 32 (elemGet s e a.sl i c))
      let z := if sum then l.foldl (· + ·) 0 else l.foldl max (l.headD 0)
      z.emod (2 ^ 32) |>.toNat)
  else
    putVals s e q d (fun i _ => reduceRow (if sum then f32add else Fl.max2) (fun c => rnd32 (elemVal s e a i c)) a.sl.cols)

/-- The number of columns of row `i` that satisfy `p`. -/
def countRow (cols : Nat) (p : Nat → Bool) : Nat := ((List.range cols).filter p).length
/-- vx.nanc (R170). -/
def runNanc (s : State) (e : Nat) (q : QInstr) : State :=
  let a := operAt q.hs (wB q.word)
  putCodes s e q.slabA (fun i _ => countRow a.sl.cols (fun c => (elemVal s e a i c).isNan))
/-- vx.popc (R170). -/
def runPopc (s : State) (e : Nat) (q : QInstr) : State :=
  putCodes s e q.slabA (fun i _ => countRow q.slabB.cols (fun c => elemGet s e q.slabB i c == 1))
/-- vx.hamm (R171). -/
def runHamm (s : State) (e : Nat) (q : QInstr) : State :=
  let y := slabAt q.hs (wC q.word)
  putCodes s e q.slabA (fun i j => countRow q.slabB.cols (fun c => elemGet s e q.slabB i c != elemGet s e y j c))

/-- Inserts `x` before the first element that it precedes. -/
def insertBefore {α : Type} (lt : α → α → Bool) (x : α) : List α → List α
  | [] => [x]
  | y :: t => if lt x y then x :: y :: t else y :: insertBefore lt x t
/-- Stable sort: equal elements keep their order. -/
def sortBy {α : Type} (lt : α → α → Bool) (l : List α) : List α := l.foldl (fun acc x => insertBefore lt x acc) []
/-- The order of vx.topk: NaN ranks after every number in both directions (R172). -/
def topkLt (largest : Bool) (a b : Nat × Fl) : Bool :=
  if a.2.isNan then false else if b.2.isNan then true else if largest then b.2.lt a.2 else a.2.lt b.2
/-- The columns of a row in the order of vx.topk. -/
def topkOrder (largest : Bool) (cols : Nat) (val : Nat → Fl) : List (Nat × Fl) :=
  sortBy (topkLt largest) ((List.range cols).map (fun c => (c, val c)))
/-- vx.topk (R172). -/
def runTopk (s : State) (e : Nat) (q : QInstr) : State :=
  let a := operAt q.hs (wB q.word)
  let rows := (List.range a.sl.rows).map (fun i => topkOrder (vFlag q.word) a.sl.cols (elemVal s e a i))
  putCodes s e q.slabA (fun i j => ((rows.getD i []).getD j (0, .zero)).1)

/-- Is `x ≥ y` (false when either is NaN)? -/
def Fl.ge (x y : Fl) : Bool := !x.isNan && !y.isNan && !x.lt y
/-- Partial sums from the front until one satisfies `stop`: how many terms were added, and the sum. -/
def sumUntil (stop : Fl → Bool) : List Fl → Nat → Fl → Nat × Fl
  | [], n, t => (n, t)
  | x :: l, n, t => let t := f32add t x; if stop t then (n + 1, t) else sumUntil stop l (n + 1) t
/-- The index of the first partial sum above `u`, if one is. -/
def firstAbove (u : Fl) : List Fl → Nat → Fl → Option Nat
  | [], _, _ => none
  | x :: l, n, t => let t := f32add t x; if u.lt t then some n else firstAbove u l (n + 1) t

/-- The token selected from a row of logits with parameters T, p, k and the random word r (R187). -/
def sampleRow (l : List Fl) (t p : Fl) (k r : Nat) : Nat :=
  let x := l.map (fun v => if v.isNan then Fl.inf true else v)
  let xs (j : Nat) : Fl := x.getD j .nan
  if !Fl.zero.lt t then (topkOrder true x.length xs).headD (0, .zero) |>.1
  else
    let z := topkOrder true x.length (fun j => f32div (xs j) t)
    let kk := if k = 0 ∨ 256 < k then min x.length 256 else min k x.length
    let c := z.take kk
    let c0 := c.headD (0, .nan)
    if c0.2.isInf then c0.1
    else
      let es := c.map (fun v => f32exp (f32sub v.2 c0.2))
      let total := es.foldl f32add .zero
      let q := if Fl.zero.lt p && p.lt (.ofInt 1) then f32mul p total else total
      let cut := sumUntil (fun v => v.ge q) es 0 .zero
      let u := f32mul cut.2 (rnd32 (.fin false r (2 ^ 32)))
      let n := (firstAbove u (es.take cut.1) 0 .zero).getD (cut.1 - 1)
      (c.getD n (0, .zero)).1
/-- vx.samp (R173, R187). -/
def runSamp (s : State) (e : Nat) (q : QInstr) : State :=
  let a := operAt q.hs (wB q.word)
  let y := slabAt q.hs (wC q.word)
  putCodes s e q.slabA (fun i _ =>
    let p (c : Nat) : Nat := elemGet s e y i c
    let r := philoxWord (p 4 + 2 ^ 32 * p 5) (p 6) s.rt.seedSlice.toNat 0 1
    sampleRow ((List.range a.sl.cols).map (elemVal s e a i)) (ofF32 (p 0)) (ofF32 (p 1)) (p 2) r)

/-- The fused optimizer step of one element: m, v, w (R174). -/
def optStep (lr wd b1 b1c b2 b2c c1 c2 eps w g m v : Fl) : Fl × Fl × Fl :=
  let m := f32fma b1 m (f32mul b1c g)
  let v := f32fma b2 v (f32mul (f32mul b2c g) g)
  let u := f32div (f32mul m c1) (f32add (f32sqrt (f32mul v c2)) eps)
  (m, v, f32sub w (f32mul lr (f32fma wd w u)))
/-- vx.opt (R174). -/
def runOpt (s : State) (e : Nat) (q : QInstr) : State :=
  let w := q.word
  let r (k : Nat) : W64 := q.reg (vSel w + k)
  let lo (k : Nat) : Fl := ofF32 (fld (r k) 0 32)
  let hi (k : Nat) : Fl := ofF32 (fld (r k) 32 32)
  let x := operAt q.hs (wA w)
  let g := operAt q.hs (wB w)
  let m := operAt q.hs (wC w)
  let v := operAt q.hs (wD w)
  let res (i j : Nat) : Fl × Fl × Fl :=
    optStep (lo 0) (hi 0) (lo 1) (hi 1) (lo 2) (hi 2) (lo 3) (hi 3) (lo 4)
      (elemVal s e x i j) (elemVal s e g i j) (elemVal s e m i j) (elemVal s e v i j)
  let s1 := putCodes s e m.sl (fun i j => toF32 (res i j).1)
  let s2 := putCodes s1 e v.sl (fun i j => toF32 (res i j).2.1)
  putCodes s2 e x.sl (fun i j => toF32 (res i j).2.2)

/-- Source `i` of gg.sum (R177). -/
def ggSource (d p : Slab) (b : Nat) : Slab := { d with acc := p.acc, fmt := p.fmt, scal := 0, stride := p.stride, base := p.base + b }
/-- Does a source of gg.sum extend beyond the pool? Its address, if so. -/
def ggBeyond (s : State) (e : Nat) (q : QInstr) : Option Nat :=
  let d := q.slabA
  let p := q.slabB
  let l := slabAt q.hs (wC q.word)
  ((List.range l.rows).map (fun i => ggSource d p (elemGet s e l i 0))).find?
    (fun x => decide (p.base * 64 + p.extent < x.base * 64 + x.extent))
    |>.map (fun x => storeAddr e x.acc (x.base * 64))
/-- gg.sum: the buffers added in list order (R177). -/
def runGg (s : State) (e : Nat) (q : QInstr) : State :=
  let d := operAt q.hs (wA q.word)
  let p := q.slabB
  let l := slabAt q.hs (wC q.word)
  let xs := (List.range l.rows).map (fun i => ggSource d.sl p (elemGet s e l i 0))
  putVals s e q d (fun i j =>
    let vs := xs.map (fun x => ofF32 (elemGet s e x i j))
    if vFlag q.word then vs.foldl f32add (rnd32 (elemVal s e d i j))
    else match vs with
      | [] => .zero
      | v :: t => t.foldl f32add v)

end Sys2Proof.Machine
end

