-- ==== Sys2Proof/Machine/Table.lean ====
section
/-!
DEFINITION. Function tables (R175, R176, R189 to R193), and the vector unit's results by opcode.
-/

namespace Sys2Proof.Machine

/-- Word `i` of a function slot. -/
def FnSlot.word (f : FnSlot) (i : Nat) : Nat := (f.words.getD i 0).toNat
/-- Word `i` as an FP32 value. -/
def FnSlot.val (f : FnSlot) (i : Nat) : Fl := ofF32 (f.word i)

/-- The exponent field of an FP32 code. -/
def expOf (c : Nat) : Nat := c / 2 ^ 23 % 256
/-- Is the FP32 code a positive normal power of two? -/
def isPow2 (c : Nat) : Bool := decide (c < 2 ^ 31) && c % 2 ^ 23 == 0 && decide (1 ≤ expOf c ∧ expOf c ≤ 254)
/-- SPO_LOG2 of the table at word `b`. -/
def FnSlot.spo (f : FnSlot) (b : Nat) : Nat := f.word (b + 3) / 16 % 16
/-- Is INDEX of the table at word `b` OCTAVE? -/
def FnSlot.octave (f : FnSlot) (b : Nat) : Bool := f.word (b + 3) % 2 == 1

/-- Is the table at word `b` valid (R190)? -/
def tableValid (f : FnSlot) (b : Nat) : Bool :=
  let fin (i : Nat) : Bool := (f.val (b + i)).isFin
  let h := f.word (b + 3)
  h / 8 % 2 == 0 && h / 256 == 0 && (List.range 7).all (fun i => f.word (b + 9 + i) == 0)
    && [4, 5, 6, 7].all fin && (List.range 768).all (fun i => fin (16 + i))
    && (if f.octave b then
          isPow2 (f.word b) && decide (f.spo b ≤ 8)
            && f.word (b + 1) == f.word b + 2 ^ 23 * (256 / 2 ^ f.spo b) && decide (expOf (f.word b) + 256 / 2 ^ f.spo b ≤ 254)
        else fin 0 && fin 1 && fin 2 && (f.val b).lt (f.val (b + 1)) && Fl.zero.lt (f.val (b + 2)))

/-- The value below or above the range: HOLD or LINEAR (R191). -/
def beyond (linear : Bool) (v slope x edge : Fl) : Fl := if linear then f32fma slope (f32sub x edge) v else v
/-- The segment polynomial. -/
def segment (f : FnSlot) (b k : Nat) (t : Fl) : Fl :=
  let c (i : Nat) : Fl := f.val (b + 16 + 3 * k + i)
  f32fma (f32fma (c 2) t (c 1)) t (c 0)

/-- The table at word `b` evaluated at an FP32 value (R191). -/
def tableEval (f : FnSlot) (b : Nat) (x : Fl) : Fl :=
  let h := f.word (b + 3)
  let xmin := f.val b
  let xmax := f.val (b + 1)
  let hi := f.val (b + 6)
  let slope := f.val (b + 7)
  if x.isNan then .nan
  else if x.lt xmin then beyond (h / 2 % 2 == 1) (f.val (b + 4)) (f.val (b + 5)) x xmin
  else if (if f.octave b then x.ge xmax else xmax.lt x) then
    if h / 4 % 2 == 1 && x.isInf then (if slope.isZero then hi else .inf slope.isNeg)
    else beyond (h / 4 % 2 == 1) hi slope x xmax
  else if f.octave b then
    let c := toF32 x
    let p := f.spo b
    let m := c % 2 ^ 23
    let k := (expOf c - expOf (f.word b)) * 2 ^ p + m / 2 ^ (23 - p)
    segment f b k (.fin false (m % 2 ^ (23 - p)) (2 ^ (23 - p)))
  else
    let t := f32mul (f32sub x xmin) (f.val (b + 2))
    let k := if t.isInf then 255 else min t.floorNat 255
    segment f b k (f32sub t (.ofInt k))

/-- tb.fwd and tb.der with the contents `f` of the slot that the last tb.load dispatched before left (R175, R176): an invalid slot gives
NaN (R190). -/
def runTable (f : FnSlot) (s : State) (e : Nat) (q : QInstr) : State :=
  let w := q.word
  let x := operAt q.hs (wB w)
  let g := operAt q.hs (wC w)
  let der := wOp w == 0xF3
  putVals s e q (operAt q.hs (wA w)) (fun i j =>
    if f.invalid then .nan
    else
      let y := tableEval f (if der then 784 else 0) (srcF32 s e x i j)
      if der && vFlag w then f32mul y (srcF32 s e g i j) else y)

/-- Does an instruction read function slot `n`? -/
def readsSlot (q : QInstr) (n : Nat) : Bool := (wOp q.word == 0xF2 || wOp q.word == 0xF3) && vSel q.word == n
/-- The load with place `ord` in dispatch order puts an image into function slot `n`, checked; a record tells of an invalid one (R190).
An issued tb.fwd or tb.der dispatched after it reads what it left, one dispatched before it does not (R175). -/
def loadSlot (s : State) (e n ord : Nat) (words : List W32) : State :=
  let f : FnSlot := ⟨words, false⟩
  let ok := tableValid f 0 && tableValid f 784
  let f : FnSlot := ⟨words, !ok⟩
  let s := engMod s e (fun g => { g with
    slots := tblSet (fun _ => FnSlot.zero) g.slots n f,
    exec := g.exec.map (fun x => if readsSlot x.i n && decide (ord < x.i.ord) then { x with fn := f } else x) })
  if ok then s else record s 5 0 16 0xFF 0 (leBytes 4 0 ++ leBytes 2 e ++ leBytes 2 n)
/-- The words of a table image: the first 1,568 elements in row-major order (R189), unspecified where an outside write met one (R77) and
where `p` says so. -/
def imageWords (s : State) (e : Nat) (q : QInstr) (p : Nat → Bool) : List W32 :=
  let x := q.slabB
  (List.range 1568).map (fun i => BitVec.ofNat 32
    (if q.hitElem x (i / x.cols) (i % x.cols) || p i then freeCode (s.free + 1) i 32 else elemGet s e x (i / x.cols) (i % x.cols)))
/-- tb.load (R189). -/
def runTbLoad (s : State) (e : Nat) (q : QInstr) : State := loadSlot (q.used s) e (vSel q.word) q.ord (imageWords s e q (fun _ => false))

/-! Outside writes (R77). -/

/-- Has an outside write met an element of row `i` of the slab of handle `k`? -/
def rowMet (q : QInstr) (k i : Nat) : Bool := let o := operAt q.hs k; (List.range o.sl.cols).any (q.hitOper o i)
/-- Has an outside write met the element of the slab of handle `k` that element (i, j) reads? -/
def srcMet (q : QInstr) (i j k : Nat) : Bool := let o := operAt q.hs k; q.hitOper o (bcast o.sl.rows i) (bcast o.sl.cols j)
/-- Has an outside write met what element (i, j) of the destination of a vector, table or gather-sum instruction comes from? -/
def vxMet (s : State) (e : Nat) (q : QInstr) (i j : Nat) : Bool :=
  let w := q.word
  let op := wOp w
  if op = 0x87 ∨ op = 0xE8 then srcMet q i j (wB w)
  else if op ≤ 0xE7 ∨ op = 0xF2 ∨ op = 0xF3 then (elemSrcs w).any (srcMet q i j)
  else if op = 0xED then rowMet q (wB w) i || rowMet q (wC w) j
  else if op = 0xEF then rowMet q (wB w) i || rowMet q (wC w) i
  else if op = 0xF0 then [wA w, wB w, wC w, wD w].any (srcMet q i j)
  else if op = 0xF4 then
    let l := slabAt q.hs (wC w)
    (List.range l.rows).any (fun k => q.hitElem l k 0 || q.hitElem (ggSource q.slabA q.slabB (elemGet s e l k 0)) i j)
  else rowMet q (wB w) i
/-- The destination slabs of a vector instruction, the scale slab of a scaled one apart. -/
def vxDsts (q : QInstr) : List Slab :=
  if wOp q.word = 0xF0 then [wA q.word, wC q.word, wD q.word].map (slabAt q.hs) else [q.slabA]
/-- The elements of the destination, and of its scale slab, that outside writes left unspecified: with a block, its scale and all its
elements (R117, R118). -/
def freeVx (s0 : State) (e : Nat) (q : QInstr) (s : State) : State :=
  let d := operAt q.hs (wA q.word)
  if q.taint.isEmpty then s
  else if d.sl.scal = 0 then (vxDsts q).foldl (fun s x => freeHit s e q x (vxMet s0 e q)) s
  else
    let bad (i j : Nat) : Bool := q.hitTensor d || (blockCells d.sl d.sc i j).any (fun c => vxMet s0 e q c.1 c.2)
    freeHit (freeHit s e q d.sl (fun r c => bad (d.blockOf r c).1 (d.blockOf r c).2)) e q d.sc bad

/-- The result of a vector or gather-sum instruction, of tb.fwd or tb.der with function slot `f`, or of mv.cvt, as far as no outside
write counts. -/
def plainVx (f : FnSlot) (s : State) (e : Nat) (q : QInstr) : State :=
  let op := wOp q.word
  if op = 0x87 ∨ op = 0xE8 then runCvt s e q
  else if op ≤ 0xE7 then runArith s e q
  else if op = 0xE9 ∨ op = 0xEA then runReduce s e q
  else if op = 0xEB then runNanc s e q
  else if op = 0xEC then runPopc s e q
  else if op = 0xED then runHamm s e q
  else if op = 0xEE then runTopk s e q
  else if op = 0xEF then runSamp s e q
  else if op = 0xF0 then runOpt s e q
  else if op = 0xF4 then runGg s e q
  else runTable f s e q
/-- The result of a vector, table or gather-sum instruction, or of mv.cvt. -/
def runVx (f : FnSlot) (s : State) (e : Nat) (q : QInstr) : State :=
  if wOp q.word = 0xF1 then runTbLoad s e q else freeVx s e q (plainVx f s e q)
/-- What such an instruction leaves that a read stopped with DATA: what was written before keeps its new value, the rest of its
destination is unspecified (R163, R166). -/
def spoilVx (f : FnSlot) (s : State) (e : Nat) (q : QInstr) : State :=
  if wOp q.word = 0xF1 then
    loadSlot { s with free := s.free + 2 } e (vSel q.word) q.ord (imageWords s e q (chosen (s.free + 2)))
  else
    let d := operAt q.hs (wA q.word)
    let s := (vxDsts q).foldl (fun s x => freeSome s e x (fun _ _ => true)) (runVx f s e q)
    if d.sl.scal != 0 then freeSome s e d.sc (fun _ _ => true) else s

end Sys2Proof.Machine
end

