-- ==== Sys2Proof/Machine/Fx.lean ====
section
/-!
DEFINITION. Dispatch of fabric instructions, sy.commit and sh.grain: their fields and checks (R143, R144, R151, R178).
-/

namespace Sys2Proof.Machine

/-- STAT: the 64-byte unit of the status word. -/
def xStat (w : IWord) : Nat := fld w 64 19
/-- RANK. -/
def xRank (w : IWord) : Bool := w.getLsbD 83
/-- AOP. -/
def xAop (w : IWord) : Nat := fld w 84 3
/-- IFC. -/
def gIfc (w : IWord) : Nat := fld w 83 3
/-- SET. -/
def gSet (w : IWord) : Bool := w.getLsbD 86
/-- WIDE. -/
def gWide (w : IWord) : Bool := w.getLsbD 87

/-- STAT is within tile SRAM (R143). -/
def statMore (w : IWord) : Bool := decide (xStat w ≤ 393215)
/-- AOP is 0 to 3, and D is 0 but for AOP 2 (R143). -/
def atomMore (w : IWord) : Bool := statMore w && decide (xAop w < 4) && (xAop w == 2 || wD w == 0)
/-- IFC is 0 to 4, and WIDE excludes SET (R178). -/
def grainMore (w : IWord) : Bool := statMore w && decide (gIfc w ≤ 4) && !(gWide w && gSet w)

/-- The footprint of the status unit. -/
def statFoot (w : IWord) : Foot := ⟨false, xStat w * 64, xStat w * 64 + 64⟩

/-- fx.put. -/
def planPut (s : State) (e : Nat) (w : IWord) : Plan :=
  let hs := (engGet s e).handles
  let srcs := footAt hs (wA w) :: scaleFeet hs (wA w)
  planIf (namedOk hs (wA w) && !srcs.any (statFoot w).meets) srcs [statFoot w]
/-- fx.get. -/
def planGet (s : State) (e : Nat) (w : IWord) : Plan :=
  let hs := (engGet s e).handles
  let srcs := scaleFeet hs (wA w)
  planIf (namedOk hs (wA w) && !(footAt hs (wA w) :: srcs).any (statFoot w).meets) srcs [footAt hs (wA w), statFoot w]
/-- fx.atom and sy.commit. -/
def planStat (_ : State) (_ : Nat) (w : IWord) : Plan := ⟨0, [], [statFoot w]⟩
/-- sh.grain (R178). -/
def planGrain (s : State) (e : Nat) (w : IWord) : Plan :=
  let hs := (engGet s e).handles
  let d := slabAt hs (wA w)
  let x := slabAt hs (wB w)
  let ok := namedOk hs (wA w) && namedOk hs (wB w) && decide (x.fmt ≤ 5) && x.scal == 0 && x.cols == 64 && !x.acc
    && d.fmt == 15 && !d.acc && d.rows == x.rows && d.cols == (if gWide w then 128 else 64)
    && !x.foot.meets d.foot && !(statFoot w).meets x.foot && !(statFoot w).meets d.foot
  planIf ok [x.foot] [d.foot, statFoot w]

end Sys2Proof.Machine
end

