-- ==== Sys2Proof/Machine/Grain.lean ====
section
/-!
DEFINITION. The transfer of a sheaf (R220 to R224): the matrix image in use, the exact outputs of a row, the bits of its grain.
-/

namespace Sys2Proof.Machine

/-! The image (R221, R223). -/

/-- A number as 4 little-endian bytes of a list of FP32 words. -/
def wordsAt (f : Nat → Nat) (o : Nat) : Byte := BitVec.ofNat 8 (f (o / 4) / 2 ^ (8 * (o % 4)))
/-- FP32 1.0. -/
def fpOne : Nat := 0x3F800000
/-- The identity image of R223 in the layout of Table 12-1: V and U the identity matrix, weights 1, PERM_s[c] = c, SIGN_s = 0. -/
def identityByte (o : Nat) : Byte :=
  if o < 0x40 then (if o = 0 then 1 else 0)
  else if o < 0x8040 then wordsAt (fun i => if i % 4096 / 64 = i % 64 then fpOne else 0) (o - 0x40)
  else if o < 0x8140 then wordsAt (fun _ => fpOne) (o - 0x8040)
  else if (o - 0x8140) % 0x80 < 0x40 then BitVec.ofNat 8 ((o - 0x8140) % 0x80) else 0
/-- The byte at an offset of the image in use (R223, Table 12-6). -/
def Sheaf.imageByte (x : Sheaf) (o : Nat) : Byte := match x.image with
  | some l => l.getD o 0
  | none => identityByte o
/-- An FP32 element in units of 2⁻¹⁴⁹, where it is finite. -/
def fixed32 (w : Nat) : Option Int :=
  let e := w / 2 ^ 23 % 256
  let m := w % 2 ^ 23
  if e = 255 then none
  else
    let v : Nat := if e = 0 then m else (2 ^ 23 + m) * 2 ^ (e - 1)
    some (if w.testBit 31 then -(v : Int) else v)
/-- The FP32 elements of `n` words from byte `off` on. -/
def words32 (l : List Byte) (off n : Nat) : List (Option Int) :=
  (chunksOf 4 n ((l.drop off).take (4 * n))).map (fun b => fixed32 (leNat b))
/-- The inner product of two rows. -/
def dotInt (a b : List Int) : Int := (a.zipWith (fun x y => x * y) b).foldl (fun s x => s + x) 0

/-! The outputs (R220). -/

/-- A finite value in units of 2⁻¹⁴⁹, of which every finite value of a format that sh.grain takes is a multiple. -/
def Fl.fixed : Fl → Int
  | .fin neg n d => let v : Int := ((n * 2 ^ 149 / d : Nat) : Int); if neg then -v else v
  | _ => 0
/-- Row `i` of a 64 × 64 matrix. -/
def matRow (m : List Int) (i : Nat) : List Int := (m.drop (64 * i)).take 64
/-- A matrix times a vector. -/
def matVec (m x : List Int) : List Int := (List.range 64).map (fun i => dotInt (matRow m i) x)
/-- The palea stage: x_s[c] = ±x[PERM_s[c]] for set `set` of an image. -/
def palea (img : List Byte) (set : Nat) (x : List Int) : List Int :=
  (List.range 64).map (fun c =>
    let v := x.getD (leAt img (0x8140 + 128 * set + c) 1) 0
    if (leAt img (0x8180 + 128 * set) 8).testBit c then -v else v)
/-- U · diag(Σ) · V · x_s in units of 2⁻⁵⁹⁶. -/
def transfer (img : List Byte) (set : Nat) (x : List Int) : List Int :=
  let elems (off n : Nat) : List Int := (words32 img off n).map (fun w => w.getD 0)
  let a := matVec (elems 0x40 4096) (palea img set x)
  matVec (elems 0x4040 4096) (a.zipWith (fun p w => p * w) (elems 0x8040 64))
/-- Is y + ν below zero, for y = `y` · 2⁻⁵⁹⁶ / ‖x‖, ‖x‖² = `n2` · 2⁻²⁹⁸ and ν = `nu` · 2⁻³²? The residual and the noise of an output
are one free number ν (R224). -/
def grainBit (y nu : Int) (n2 : Nat) : Bool :=
  let a : Int := y * 2 ^ 32
  let b : Int := nu * 2 ^ 447
  if 0 ≤ a ∧ 0 ≤ b then false
  else if a < 0 ∧ b ≤ 0 then true
  else if 0 ≤ a then decide (a * a < b * b * (n2 : Int)) else decide (b * b * (n2 : Int) < a * a)
/-- The bits of the grain of a row: set `set`, or with WIDE both sets one after the other; output `c` takes the free value `nu c`. -/
def grainBits (img : List Byte) (wide : Bool) (set : Nat) (x : List Int) (nu : Nat → Int) : List Bool :=
  let n2 := (dotInt x x).toNat
  let one (k off : Nat) : List Bool :=
    let y := transfer img k x
    (List.range 64).map (fun c => grainBit (y.getD c 0) (nu (off + c)) n2)
  if wide then one 0 0 ++ one 1 64 else one set 0

end Sys2Proof.Machine
end

