-- ==== Sys2Proof/Machine/Host.lean ====
section
/-!
DEFINITION. The host interface (chapter 20): completion rings and records, queues, the start of a descriptor and the checks
of R384, and the completion of descriptors that started engines (R351).
-/

namespace Sys2Proof.Machine

/-! Rings and queues. -/

/-- Completion ring `n`. -/
def cqGet (s : State) (n : Nat) : Cq := tblGet (fun _ => Cq.init) s.hif.cq n
/-- Sets completion ring `n`. -/
def cqPut (s : State) (n : Nat) (c : Cq) : State := { s with hif := { s.hif with cq := tblSet (fun _ => Cq.init) s.hif.cq n c } }
/-- Queue `q`. -/
def quGet (s : State) (q : Nat) : Queue := tblGet (fun _ => Queue.init) s.hif.q q
/-- Sets queue `q`. -/
def quPut (s : State) (q : Nat) (x : Queue) : State :=
  { s with hif := { s.hif with q := tblSet (fun _ => Queue.init) s.hif.q q x } }
/-- CMD_ERR of HIF_EVENTS: no record is written for it (R400). -/
def hifCmdErr (s : State) : State := setEvent s .hif 3
/-- HOST_DMA_ERR, with its record (R395, R400); `a` names where the failed read was, where a rule names one. -/
def hostDmaErr (s : State) (q status : Nat) : State := event s .hif 4 q 0 0 0 (BitVec.ofNat 8 status)

/-- A queue enters ERROR: QUEUE_ERR and a record that names q, ERR and CI (R378). -/
def queueError (s : State) (q : Nat) (err : Nat) : State :=
  let x := quGet s q
  event (quPut s q { x with st := .error, err := BitVec.ofNat 2 err, got := [] }) .hif 0 q err x.ci.toNat

/-- Does a ring have room for `k` more records (R392)? -/
def ringFits (s : State) (n k : Nat) : Bool :=
  let c := cqGet s n
  decide ((c.i - c.head).toNat + c.resv + k ≤ 2 ^ c.log2)
/-- Reserves `k` record slots. -/
def reserve (s : State) (n k : Nat) : State := let c := cqGet s n; cqPut s n { c with resv := c.resv + k }
/-- Gives `k` reserved slots back. -/
def unreserve (s : State) (n k : Nat) : State := let c := cqGet s n; cqPut s n { c with resv := c.resv - k }

/-- Signals a ring's vector (R393). -/
def ringSignal (s : State) (n : Nat) : State :=
  let c := cqGet s n
  signalVec (cqPut s n { c with unsig := 0 }) c.vec.toNat

/-- The header of a completion record (Table 20-8). -/
def recHeader (seq : Nat) (status : Byte) (phase : Bool) (kind q head : Nat) : List Byte :=
  leBytes 8 (seq % 2 ^ 16 + status.toNat * 2 ^ 16 + b2n phase * 2 ^ 24 + kind * 2 ^ 25 + q * 2 ^ 32 + (head % 2 ^ 16) * 2 ^ 48)

/-- Writes a record: bytes 8 to 31, then the header as one 8-byte write, then the ring's message (R389 to R393).
(DEDUCED, log entry 50) -/
def writeRecord (s : State) (n : Nat) (seq : Nat) (status : Byte) (kind q : Nat) (rest : List Byte) (irq : Bool) : State :=
  let c := cqGet s n
  if !c.en || !s.hif.up then s
  else
    let a := c.base.toNat + 32 * (c.i.toNat % 2 ^ c.log2)
    let phase := (c.i.toNat >>> c.log2) % 2 == 0
    let s := hostWrite s (a + 8) rest
    let s := hostWrite s a (recHeader seq status phase kind q (quGet s q).ci.toNat)
    let s := cqPut s n { c with i := c.i + 1, unsig := c.unsig + 1 }
    if irq || decide (c.count.toNat ≤ c.unsig + 1) then ringSignal s n else s

/-! Descriptors. -/

/-- Byte `i` of a descriptor. -/
def dByte (d : List Byte) (i : Nat) : Nat := (d.getD i 0).toNat
/-- The number in `n` bytes from byte `off`. -/
def dNat (d : List Byte) (off n : Nat) : Nat := leAt d off n
/-- Are bytes `lo` to `hi − 1` all 0? -/
def dZero (d : List Byte) (lo hi : Nat) : Bool := leAt d lo (hi - lo) == 0
/-- OPCODE. -/
def dOp (d : List Byte) : Nat := dByte d 0
/-- SEQ. -/
def dSeq (d : List Byte) : Nat := dNat d 2 2
/-- LENGTH. -/
def dLen (d : List Byte) : Nat := dNat d 4 4
/-- COUNT. -/
def dCount (d : List Byte) : Nat := dNat d 16 4
/-- CQ. -/
def dCq (d : List Byte) : Nat := dByte d 20
/-- The opcodes of Table 20-7. -/
def dKnown (op : Nat) : Bool :=
  [0x00, 0x01, 0x10, 0x11, 0x12, 0x13, 0x30, 0x31, 0x32, 0x33, 0x34, 0x35, 0x40, 0x41, 0x42, 0x50, 0x51, 0x52, 0x60].contains op

/-- A started descriptor by its number. -/
def stGet (s : State) (k : Nat) : Option Started := s.hif.started.find? (fun d => d.id == k)
/-- Changes a started descriptor. -/
def stMod (s : State) (k : Nat) (f : Started → Started) : State :=
  { s with hif := { s.hif with started := s.hif.started.map (fun d => if d.id = k then f d else d) } }

/-- A STOPPING queue whose last started descriptor has written its record becomes DISABLED (R378). -/
def queueStopped (s : State) (q : Nat) : State :=
  let x := quGet s q
  if x.st = .stopping ∧ (s.hif.started.any (fun d => d.q == some q)) = false then quPut s q { x with st := .disabled, got := [] } else s

/-- A started descriptor completes: its status is the first code of R9 among those that apply, the others get a fault record
of their own, but for those that have one already, from an engine's exception or another rule; its record is written, its
reservation ends (R389 to R392). One whose queue went with the host link writes no record (R398). -/
def completeMet (s : State) (k : Nat) (m : Met) (result : W32) : State :=
  match stGet s k with
  | none => s
  | some d =>
    let codes := m.codes ++ d.codes
    let own := (d.engDone.map (fun x => x.2.1)).filter (fun c => c != stLease && c != stReclaimed)
    let st := pickStatus codes
    let s := unreported s 0 codes (m.told ++ d.told ++ own)
    let s := { s with hif := { s.hif with started := s.hif.started.filter (fun x => x.id != k) } }
    match d.q with
    | none => s
    | some q =>
      let n := dCq d.desc
      let rest := leBytes 4 result.toNat ++ [d.desc.getD 0 0] ++ leBytes 3 0 ++ leBytes 8 s.beat.now.toNat ++ leBytes 8 0
      queueStopped (writeRecord (unreserve s n 1) n (dSeq d.desc) st 0 q rest (dByte d.desc 1 % 2 == 1)) q
/-- A started descriptor completes with one status. -/
def complete (s : State) (k : Nat) (status : Byte) (result : W32) : State := completeMet s k ⟨[status], []⟩ result

/-! Ranges (R384). -/

/-- A range that a descriptor names: host or package memory, or HBM and nothing else, its start, its bytes, whether it is written. -/
structure DRange where
  host  : Bool
  hbm   : Bool
  addr  : Nat
  len   : Nat
  write : Bool
  deriving DecidableEq, Repr

/-- Base and size of host region `r`, and whether it grants the access. -/
def hostRegion (s : State) (r : Nat) (write : Bool) : Nat × Nat × Bool :=
  let b := tblGet (fun _ => 0) s.hif.hrgnBase r
  let z := tblGet (fun _ => 0) s.hif.hrgnSize r
  (fld b 12 52 * 4096, fld z 12 36 * 4096, z.getLsbD (if write then 63 else 62))

/-- The verdict on a range against a list of regions `(start, size, permitted)`: 0, LENGTH_EXCEEDS_REGION or PROT_DENIED. -/
def regionVerdict (l : List (Nat × Nat × Bool)) (a len : Nat) : Byte :=
  let inside := l.filter (fun r => decide (r.1 ≤ a) && decide (a < r.1 + r.2.1))
  if inside.any (fun r => r.2.2 && decide (a + len ≤ r.1 + r.2.1)) then 0
  else if inside.any (fun r => decide (a + len ≤ r.1 + r.2.1)) then stProt
  else if inside.isEmpty then stProt else stLength

/-- The verdict on a range, and the address that R26 refuses where the verdict is PROT_DENIED, if it refuses one.
(DESIGN CHOICE, log entry 161) -/
def rangeVerdict (s : State) (t : QTab) (r : DRange) : Byte × Option Nat :=
  if r.len = 0 then (0, none)
  else if 2 ^ 64 < r.addr + r.len then (stLength, none)
  else if r.host then
    (regionVerdict ((setBits 64 t.hrgn.toNat).map (fun i => hostRegion s i r.write)) r.addr r.len, none)
  else if r.addr < 2 ^ 40 then
    let v := regionVerdict [(t.lo, t.hi - t.lo, true)] r.addr r.len
    if v = stLength then (v, none)
    else if v = 0 ∧ hbmOk s r.addr r.len = true then (0, none) else (stProt, mapRefusal s r.addr r.len)
  else if r.hbm then (stProt, mapRefusal s r.addr r.len)
  else
    match decodeAddr s r.addr with
    | .window e acc off =>
      if !t.engs.getLsbD e then (stProt, mapRefusal s r.addr r.len)
      else if off + r.len ≤ (if acc then 0x400000 else 0x1800000) then (0, none) else (stLength, none)
    | _ => (stProt, mapRefusal s r.addr r.len)

/-- The verdicts on the ranges of a descriptor. -/
def rangeCodes (s : State) (t : QTab) (l : List DRange) : List Byte := l.map (fun r => (rangeVerdict s t r).1)
/-- The address that R26 refuses among the ranges. -/
def rangeRefused (s : State) (t : QTab) (l : List DRange) : Option Nat := (l.filterMap (fun r => (rangeVerdict s t r).2)).head?

/-- A local HBM range that a descriptor names. -/
def hbmRange (a len : Nat) (write : Bool) : DRange := ⟨false, true, a, len, write⟩

/-- The checks of an opcode: its fields in order (R384 check 1), the ranges it names, further codes. -/
structure DCheck where
  form   : Bool
  ranges : List DRange
  codes  : List Byte
  deriving DecidableEq, Repr

/-- The fields that every descriptor has in common are in order; `count` says that the opcode uses COUNT (R382, R384).
(DEDUCED, log entry 91) -/
def commonForm (d : List Byte) (count : Bool) : Bool :=
  dByte d 1 / 4 == 0 && dZero d 14 16 && dZero d 21 32 && (count || dCount d == 0)

/-! Start. -/

/-- Has NOT_BEFORE_BEAT come (R57, R382)? The low 48 bits name the nearest beat. -/
def beatReached (s : State) (d : List Byte) : Bool :=
  let b := dNat d 8 6
  b == 0 || decide ((s.beat.now.toNat + 2 ^ 48 - b) % 2 ^ 48 ≤ 2 ^ 47)

/-- The codes that a lapsed lease or a reclaim gives a descriptor that has not started (R397, R414, R423). -/
def cutCodes (s : State) (x : Queue) : List Byte :=
  let beyond : Bool := match x.snap with
    | some n => decide ((x.ci - n).toNat < 2 ^ 31)
    | none => true
  (if s.lease.phase = 2 ∨ ((s.lease.phase = 1 ∨ s.lease.phase = 3 ∨ s.lease.phase = 4 ∨ s.lease.phase = 5) ∧ beyond = true)
    then [stReclaimed] else []) ++ (if s.lease.st = 2 ∨ s.fence.chips.contains s.rt.chip.toNat = true then [stLease] else [])

/-- The descriptor at the front of an ACTIVE queue, if nothing but room or its opcode's own rules holds it back (R385). -/
def frontReady (s : State) (q : Nat) : Option (List Byte) :=
  let x := quGet s q
  if x.st ≠ .active ∨ !s.hif.up then none
  else
    match x.got with
    | [] => none
    | d :: _ =>
      let mine := (s.hif.started.filter (fun y => y.q == some q)).length
      if decide (mine < 64) && decide (s.hif.started.length < 4096) && (beatReached s d || !(cutCodes s x).isEmpty)
          && (dNat d 8 6 == 0 || !workDue s) && (dByte d 1 / 2 % 2 == 0 || mine == 0) then some d else none

/-- Takes the front descriptor of a queue as started under number `k`, with one record slot reserved. -/
def takeFrontAs (s : State) (q : Nat) (d : List Byte) (w : DWait) (k : Nat) : State :=
  let x := quGet s q
  let s := quPut s q { x with got := x.got.drop 1, ci := x.ci + 1 }
  let s := reserve s (dCq d) 1
  { s with hif := { s.hif with started := s.hif.started ++ [⟨k, some q, d, w, 0, [], [], 0, [], []⟩] } }
/-- Takes a number for a descriptor. -/
def takeId (s : State) : Nat × State := (s.hif.nextId, { s with hif := { s.hif with nextId := s.hif.nextId + 1 } })
/-- Takes the front descriptor of a queue as started, with one record slot reserved; answers its number. -/
def takeFront (s : State) (q : Nat) (d : List Byte) (w : DWait) : Nat × State :=
  let (k, s) := takeId s
  (k, takeFrontAs s q d w k)

/-- One attempt to start the descriptor at the front of queue `q`, which must carry opcode `op`: the ring (BAD_CQ, room), the
checks of R384 with the codes of R397, the opcode's own waits, then `act`. `bad` follows a refusal; `early` is what an opcode does
before there is room in its rings, in place of starting (R214). (DEDUCED, log entry 9) -/
def startDesc (op : Nat) (check : State → QTab → List Byte → DCheck) (waits : State → List Byte → Bool)
    (act : State → Nat → List Byte → State) (s : State) (q : Nat) (bad : State → State := fun s => s)
    (early : Option (State → Nat → List Byte → State) := none) : State :=
  match frontReady s q with
  | none => s
  | some d =>
    let x := quGet s q
    if dOp d ≠ op then s
    else if !(cqGet s (dCq d)).en then queueError s q 3
    else
      let c := check s x.tab d
      let codes := (if c.form then [] else [stMalformed]) ++ c.codes ++ rangeCodes s x.tab c.ranges ++ cutCodes s x
      let code := pickStatus codes
      if code = 0 ∧ early.isSome = true then (if waits s d then s else (early.getD (fun s _ _ => s)) s q d)
      else if !ringFits s (dCq d) 1 then s
      else if code ≠ 0 then
        let (k, s') := takeFront s q d .ready
        let s' := match (if code = stProt then rangeRefused s x.tab c.ranges else none) with
          | some a => refusedAccess s' a stProt
          | none => s'
        bad (completeMet s' k (if (cutCodes s x).contains code then ⟨cutCodes s x, []⟩ else ⟨[code], []⟩) 0)
      else if waits s d then s
      else
        let (k, s') := takeFront s q d .ready
        act s' k d

/-- Never waits. -/
def noWait (_ : State) (_ : List Byte) : Bool := false

/-- While the front descriptor of a queue carries an undefined opcode, it starts and completes DESC_MALFORMED (R383). -/
def runUndefined (s : State) (q : Nat) : Nat → State
  | 0 => s
  | n + 1 =>
    match frontReady s q with
    | none => s
    | some d =>
      if dKnown (dOp d) then s
      else runUndefined (startDesc (dOp d) (fun _ _ _ => ⟨false, [], []⟩) noWait (fun s _ _ => s) s q) q n
/-- Undefined opcodes at the front of queue `q` are completed. -/
def afterStart (s : State) (q : Nat) : State := runUndefined s q ((quGet s q).got.length + 1)

/-- The row of a descriptor opcode. -/
def descRow (op : Nat) (check : State → QTab → List Byte → DCheck) (waits : State → List Byte → Bool)
    (act : State → Nat → List Byte → State) (s : State) (q : Nat) (bad : State → State := fun s => s)
    (early : Option (State → Nat → List Byte → State) := none) : State :=
  afterStart (startDesc op check waits act (afterStart s q) q bad early) q

/-! Descriptors that started engines (R351). -/

/-- The engine that a completion reports: of those with the status, the earliest beat, then the lowest number. -/
def reportedEngine (l : List (Nat × Byte × Bool × W64)) (st : Byte) : Nat :=
  let c := l.filter (fun x => x.2.1 == st)
  match c with
  | [] => 0
  | x :: t => (t.foldl (fun m y => if y.2.2.2.toNat < m.2.2.2.toNat ∨ (y.2.2.2 = m.2.2.2 ∧ y.1 < m.1) then y else m) x).1

/-- The status of a descriptor whose engines have all left, and the combined record when two or more faulted. -/
def combine (s : State) (d : Started) : Byte × State :=
  let st := pickStatus ((d.engDone.map (fun x => x.2.1)) ++ d.codes)
  let bad := d.engDone.filter (fun x => x.2.2.1)
  if bad.length < 2 then (st, s)
  else
    let mask := bad.foldl (fun m x => m + 2 ^ x.1) 0
    (st, record s 3 st 16 0xFF 0 (leBytes 8 mask ++ [BitVec.ofNat 8 bad.length, BitVec.ofNat 8 (reportedEngine d.engDone st)]))

/-- A started descriptor whose engines have all stopped completes. -/
def settleOne (s : State) (d : Started) : State :=
  if d.wait = .engines ∧ d.engLeft = 0 then
    let (st, s) := combine s d
    complete s d.id st d.result
  else s
/-- Every descriptor that has nothing left to wait for from its engines completes (R351). -/
def settle (s : State) : State := s.hif.started.foldl settleOne s

end Sys2Proof.Machine
end

