-- ==== Sys2Proof/Machine/Queues.lean ====
section
/-!
DEFINITION. Queues, doorbells, rings and vectors of the host interface (R378 to R381, R390 to R399), and the link to the host (R370,
R398).
-/

namespace Sys2Proof.Machine

/-! Reads of host memory. -/

/-- `n` bytes of a host-memory answer from address `a` up. (DEDUCED, log entry 5) -/
def hostBytes (hv : HostView) (a n : Nat) : List Byte :=
  (List.range n).map (fun i => match hv.cells.find? (fun c => c.1 == a + i) with
    | some c => c.2
    | none => 0)
/-- A number of `n` bytes in a host-memory answer. -/
def hostNat (hv : HostView) (a n : Nat) : Nat := leNat (hostBytes hv a n)
/-- The status that a failed read of host memory gives a descriptor (Table 20-9). -/
def hostStatus (hv : HostView) : Byte := match hv.fail with
  | .none => 0 | .ur => stProt | .poisoned => stData | .timeout => stTimeout

/-! START and STOP (R378). -/

/-- The queue table entry that 64 bytes spell (Table 20-3). -/
def qtabOf (l : List Byte) : QTab :=
  { ring := BitVec.ofNat 64 (leAt l 0 8), hbm := (leAt l 8 1).testBit 1, log2 := leAt l 8 1 / 4 % 32, weight := leAt l 9 1 % 16,
    privF := (leAt l 10 1).testBit 0, privC := (leAt l 10 1).testBit 1, hrgn := BitVec.ofNat 64 (leAt l 16 8),
    engs := BitVec.ofNat 64 (leAt l 24 8), lo := leAt l 32 6, hi := leAt l 40 6 }
/-- May the entry be started? -/
def qtabOk (l : List Byte) : Bool :=
  let t := qtabOf l
  (leAt l 8 1).testBit 0 && leAt l 8 1 / 128 == 0 && leAt l 9 1 / 16 == 0 && leAt l 10 1 / 4 == 0 && leAt l 11 5 == 0
    && leAt l 38 2 == 0 && leAt l 46 18 == 0 && decide (t.log2 ≤ 16) && t.weight != 0 && t.ring.toNat % 4096 == 0
    && t.lo % 4096 == 0 && t.hi % 4096 == 0 && decide (t.lo ≤ t.hi)
/-- HIF_Q_CMD START: refused before READY (R475). (DEDUCED, log entry 89) -/
def startQueue (q : Nat) (hv : HostView) (s : State) : State :=
  let x := quGet s q
  if !fwUp s then s
  else if 1024 ≤ q ∨ s.boot.stage ≠ 13 ∨ !(x.st == .disabled || x.st == .error) then hifCmdErr s
  else if !s.hif.up then hifCmdErr s
  else if hv.fail ≠ .none then hifCmdErr (hostDmaErr s q 0)
  else
    let l := hostBytes hv (s.hif.qtBase.toNat + 64 * q) 64
    let pi : W32 := BitVec.ofNat 32 (hostNat hv (s.hif.dbBase.toNat + 4 * q) 4)
    if qtabOk l then
      quPut s q { st := .active, err := 0, ci := pi, pi := pi, fetched := pi, tab := qtabOf l, got := [], snap := none }
    else hifCmdErr s
/-- HIF_Q_CMD STOP: what has not started is dropped, and CI passes it (R396). -/
def stopQueue (q : Nat) (s : State) : State :=
  let x := quGet s q
  if !fwUp s then s
  else if 1024 ≤ q ∨ x.st ≠ .active then hifCmdErr s
  else queueStopped (quPut s q { x with st := .stopping, ci := x.pi, fetched := x.pi, got := [] }) q

/-! Doorbells and fetches (R380, R381). -/

/-- A poll of the summary. -/
def poll (s : State) : State :=
  if s.hif.en && s.hif.up then { s with hif := { s.hif with sumOut := s.hif.sumOut + 1 } } else s
/-- A summary read returns: the groups whose counter changed are read. (DEDUCED, log entry 88) -/
def summaryReturn (hv : HostView) (s : State) : State :=
  if s.hif.sumOut = 0 then s
  else
    let s := { s with hif := { s.hif with sumOut := s.hif.sumOut - 1 } }
    if hv.fail ≠ .none then hostDmaErr s 0 0
    else each (List.range 32) s (fun s g =>
      let c : W32 := BitVec.ofNat 32 (hostNat hv (s.hif.sumBase.toNat + 4 * g) 4)
      if tblGet (fun _ => 0) s.hif.sums g = c then s
      else { s with hif := { s.hif with sums := tblSet (fun _ => 0) s.hif.sums g c, groupOut := s.hif.groupOut ++ [g] } })
/-- The producer index of queue `q` is read. -/
def indexRead (s : State) (q : Nat) (pi : W32) : State :=
  let x := quGet s q
  if x.st ≠ .active ∨ pi = x.pi then s
  else if 2 ^ x.tab.log2 < (pi - x.ci).toNat then queueError s q 1
  else quPut s q { x with pi := pi }
/-- The producer indices of a group return. -/
def groupReturn (g : Nat) (hv : HostView) (s : State) : State :=
  if !s.hif.groupOut.contains g then s
  else
    let s := { s with hif := { s.hif with groupOut := s.hif.groupOut.erase g } }
    if hv.fail ≠ .none then hostDmaErr s (32 * g) 0
    else each ((List.range 32).map (fun i => 32 * g + i)) s (fun s q =>
      indexRead s q (BitVec.ofNat 32 (hostNat hv (s.hif.dbBase.toNat + 4 * q) 4)))
/-- How many descriptors the next fetch of a queue reads: those up to PI that are not fetched, at most eight. -/
def Queue.fetchLen (x : Queue) : Nat :=
  if x.st = .active then min 8 ((x.pi - x.ci).toNat - (x.fetched - x.ci).toNat) else 0
/-- WEIGHT of queue `q`. -/
def fetchWeight (s : State) (q : Nat) : Nat := (quGet s q).tab.weight
/-- The queue whose fetch the round robin grants next, with the used counts (R285, R380). (DEDUCED, log entry 87) -/
def fetchTurn (s : State) : Option (Nat × Tbl Nat) :=
  wrrPick (fetchWeight s) s.hif.fetchP s.hif.fetchU ((s.hif.q.filter (fun e => decide (e.2.fetchLen ≠ 0))).map (fun e => e.1))
/-- A descriptor fetch of queue `q` ends, with up to eight descriptors. -/
def fetchReturn (q : Nat) (hv : HostView) (s : State) : State :=
  let x := quGet s q
  let n := x.fetchLen
  match (if s.hif.up then fetchTurn s else none) with
  | none => s
  | some (w, u) =>
  if w ≠ q then s
  else
    let r := wrrStep (fetchWeight s) 1024 q u
    let s := { s with hif := { s.hif with fetchP := r.1, fetchU := r.2 } }
    let at' (i : Nat) : Nat := x.tab.ring.toNat + 64 * ((x.fetched.toNat + i) % 2 ^ x.tab.log2)
    let got (rd : Nat → List Byte) : State :=
      afterStart (quPut s q { x with fetched := x.fetched + BitVec.ofNat 32 n, got := x.got ++ (List.range n).map rd }) q
    if x.tab.hbm then
      match (List.range n).find? (fun i => !hbmOk s (at' i) 64) with
      | some i => queueError (refusedAccess s (refusedAt s (at' i) 64) 0) q 2
      | none =>
        if (List.range n).any (fun i => readFails s (at' i) 64) then
          queueError (each (List.range n) s (fun s i => noteUes s (at' i) 64)) q 2
        else got (fun i => memRead s.mem (at' i) 64)
    else if hv.fail ≠ .none then queueError (hostDmaErr s q 0) q 2
    else got (fun i => hostBytes hv (at' i) 64)

/-! Rings (R390 to R394). -/

/-- The head of the fault ring is read, while it is full. -/
def frHead (hv : HostView) (s : State) : State :=
  if !s.fr.en || !s.hif.up || (s.fr.j - s.fr.head).toNat != 2 ^ s.fr.log2 then s
  else if hv.fail ≠ .none then hostDmaErr s 0 0
  else { s with fr := { s.fr with head := BitVec.ofNat 32 (hostNat hv (s.hif.headBase.toNat + 1024) 4) } }
/-- COAL_TIME has passed. -/
def coalTime (n : Nat) (s : State) : State :=
  let c := cqGet s n
  if c.en && c.time != 0 && c.unsig != 0 then ringSignal s n else s
/-- HIF_CQ_CTRL_n. (DEDUCED, log entry 90) -/
def cqCtrl (n : Nat) (v : W32) (s : State) : State :=
  let c := cqGet s n
  let log2 := fld v 1 5
  let en := v.getLsbD 0
  if 256 ≤ n ∨ !fwUp s then s
  else if log2 < 4 ∨ 16 < log2 ∨ (c.en = true ∧ log2 ≠ c.log2) ∨ (c.en = true ∧ en = false ∧ c.resv ≠ 0) then hifCmdErr s
  else
    let c := { c with log2 := log2, vec := BitVec.ofNat 8 (fld v 8 8), count := BitVec.ofNat 8 (fld v 16 8), time := BitVec.ofNat 8 (fld v 24 8) }
    cqPut s n (if en && !c.en then { c with en := true, i := 0, head := 0, unsig := 0 } else { c with en := en })
/-- HIF_FR_CTRL. -/
def frCtrl (v : W32) (s : State) : State :=
  let log2 := fld v 1 5
  let en := v.getLsbD 0
  if !fwUp s then s
  else if log2 < 6 ∨ 16 < log2 then hifCmdErr s
  else
    let f := { s.fr with log2 := log2, en := en }
    { s with fr := if en && !s.fr.en then { f with j := 0, head := 0 } else f }
/-- A message of the fault-ring vector, due once records were written. -/
def faultVec (s : State) : State :=
  if s.fr.due then signalVec { s with fr := { s.fr with due := false } } s.hif.faultVec.toNat else s

/-! MSI-X (R372, R393). -/

/-- One 32-bit word of the MSI-X table. -/
def msixWord (s : State) (w : Nat) (v : W32) : State :=
  let k := w / 4
  let e := tblGet (fun _ => Vec.init) s.msix k
  let put (e : Vec) : State := { s with msix := tblSet (fun _ => Vec.init) s.msix k e }
  if w % 4 = 0 then put { e with addr := BitVec.ofNat 64 (e.addr.toNat / 2 ^ 32 * 2 ^ 32 + v.toNat / 4 * 4) }
  else if w % 4 = 1 then put { e with addr := BitVec.ofNat 64 (e.addr.toNat % 2 ^ 32 + v.toNat * 2 ^ 32) }
  else if w % 4 = 2 then put { e with data := v }
  else
    let m := v.getLsbD 0
    if e.pending && !m then
      let s := put { e with mask := false, pending := false }
      if s.hif.up then emit s (.msix k e.addr e.data) else s
    else put { e with mask := m }
/-- The bytes of an MSI-X table entry. -/
def vecBytes (s : State) (k : Nat) : List Byte :=
  let e := tblGet (fun _ => Vec.init) s.msix k
  leBytes 8 e.addr.toNat ++ leBytes 4 e.data.toNat ++ leBytes 4 (b2n e.mask)
/-- The pending-bit array. -/
def pendingBits (s : State) : List Byte :=
  (List.range 32).map (fun i => BitVec.ofNat 8
    ((List.range 8).foldl (fun n j => n + b2n (tblGet (fun _ => Vec.init) s.msix (8 * i + j)).pending * 2 ^ j) 0))
/-- A read of BAR4: the table, the pending-bit array, or nothing there (R372, R373). -/
def bar4Get (off len : Nat) (s : State) : State :=
  if off + len ≤ 4096 then emit s (.bar ((((List.range 256).flatMap (vecBytes s)).drop off).take len))
  else if 0x8000 ≤ off ∧ off + len ≤ 0x8020 then emit s (.bar (((pendingBits s).drop (off - 0x8000)).take len))
  else emit s .barUnsupported
/-- A write of BAR4: the table, the pending-bit array, which a write leaves, or nothing there (R372, R373). -/
def msixWrite (off : Nat) (wide : Bool) (v : W64) (s : State) : State :=
  let n := if wide then 8 else 4
  if !fwUp s || !s.hif.up || off % n != 0 then s
  else if 4096 ≤ off then (if 0x8000 ≤ off ∧ off + n ≤ 0x8020 then s else emit s .barUnsupported)
  else
    let s := msixWord s (off / 4) (v.setWidth 32)
    if wide then msixWord s (off / 4 + 1) (BitVec.ofNat 32 (fld v 32 32)) else s

/-! The link (R370, R398). -/

/-- The host link goes down: queues and completion rings are disabled, what waits for host memory ends, records are dropped.
(DEDUCED, log entry 94) -/
def linkDown (s : State) : State :=
  if !s.hif.up then s
  else
    let h := s.hif
    let s := { s with hif := { h with
      up := false, gen := 0, width := 0, flit := false, sumOut := 0, groupOut := [],
      q := h.q.foldl (fun t e => tblSet (fun _ => Queue.init) t e.1 { e.2 with st := .disabled, err := 0, got := [], fetched := e.2.pi }) h.q,
      cq := h.cq.foldl (fun t e => tblSet (fun _ => Cq.init) t e.1 { e.2 with en := false, resv := 0, unsig := 0 }) h.cq,
      started := (h.started.filter (fun d => d.wait != .hostRead)).map (fun d => { d with q := none }) } }
    event s .hif 1
/-- The host link has trained. -/
def linkTrain (gen width : Nat) (flit : Bool) (s : State) : State :=
  if !s.board.held && decide (2 ≤ s.boot.stage ∧ s.boot.stage ≤ 13) && decide (1 ≤ gen ∧ gen ≤ 6) && [1, 2, 4, 8, 16].contains width then
    { s with hif := { s.hif with up := true, gen := BitVec.ofNat 3 gen, width := BitVec.ofNat 5 width, flit := flit } }
  else s

/-! The rows of the table. -/

/-- START (R378). -/
def execStart (q : Nat) (hv : HostView) (s : State) : Host.Outcome State Fault Refusal := run s (startQueue q hv)
/-- DOORBELL_POLL (R380). -/
def execDoorbellPoll (s : State) : Host.Outcome State Fault Refusal := run s poll
/-- SUMMARY_READ_RETURN (R380). -/
def execSummaryReadReturn (hv : HostView) (s : State) : Host.Outcome State Fault Refusal := run s (summaryReturn hv)
/-- FR_HEAD_READ (R394). -/
def execFrHeadRead (hv : HostView) (s : State) : Host.Outcome State Fault Refusal := run s (frHead hv)
/-- COAL_TIMER (R393). -/
def execCoalTimer (n : Nat) (s : State) : Host.Outcome State Fault Refusal := run s (coalTime n)
/-- CQ_CTRL_WRITE (R390). -/
def execCqCtrlWrite (n : Nat) (v : W32) (s : State) : Host.Outcome State Fault Refusal := run s (cqCtrl n v)
/-- FR_CTRL_WRITE (R394). -/
def execFrCtrlWrite (v : W32) (s : State) : Host.Outcome State Fault Refusal := run s (frCtrl v)
/-- HIF_FAULT_VEC (R393). -/
def execHifFaultVec (s : State) : Host.Outcome State Fault Refusal := run s faultVec
/-- MSIX_TABLE_WRITE (R372). -/
def execMsixTableWrite (off : Nat) (wide : Bool) (v : W64) (s : State) : Host.Outcome State Fault Refusal := run s (msixWrite off wide v)
/-- HOST_LINK_TRAIN (R370). -/
def execHostLinkTrain (gen width : Nat) (flit : Bool) (s : State) : Host.Outcome State Fault Refusal := run s (linkTrain gen width flit)
/-- EVENT_CLEAR (R515): an event that arrives in the same cycle keeps its bit set. -/
def execEventClear (blk : EvBlk) (mask arriving : W32) (s : State) : Host.Outcome State Fault Refusal :=
  run s (fwOnly (fun s => evPut s blk (evGet s blk &&& ~~~(mask &&& ~~~arriving))))

end Sys2Proof.Machine
end

