-- ==== Sys2Proof/Machine/Transfer.lean ====
section
/-!
DEFINITION. Transfers of descriptors between package and host memory (R42, R273, Table 14-6), and home writes that a descriptor makes
piece by piece, as the homes take them (R405).
-/

namespace Sys2Proof.Machine


/-- Bytes of a package range, with what their read meets (Table 14-6). -/
def fetchBytes (s : State) (a len : Nat) : (Met × List Byte) × State :=
  if 2 ^ 40 ≤ a then ((.none, memRead s.mem a len), s)
  else
    let (m, s) := readsMeet s stProt [(a, len)]
    ((m, memRead s.mem a len), s)
/-- A home write with what it meets: a refusal of the map, recorded with `status`, a lost stack, uncorrectable words that it covers in
part (R15, R26, R273). -/
def homeWrite (wr : State → Nat → List Byte → State) (status : Byte) (s : State) (a : Nat) (bs : List Byte) : Met × State :=
  if !hbmOk s a bs.length then (.prot, refusedAccess s (refusedAt s a bs.length) status)
  else if touchesLost s a bs.length then (.data false, s)
  else (if writeMeetsBad s a bs.length then .data true else .none, wr (notePartial s a bs.length) a bs)
/-- Writes bytes to a package range: home writes in HBM, writes from outside in an engine window (R42, R77). -/
def storeBytes (s : State) (a : Nat) (bs : List Byte) : Met × State :=
  if bs.isEmpty then (.none, s)
  else
    match decodeAddr s a with
    | .window e acc off => (.none, windowWrite s e acc off bs)
    | _ => homeWrite hbmWrite stProt s a bs
/-- Must a write to a package range wait for the mirror sender (R405)? -/
def storeHeld (s : State) (a len : Nat) : Bool := decide (a < 2 ^ 40) && mirHolds s a len
/-- Bytes of a read that failed, of which some had come: the others are unspecified, and so are those of a word that is
uncorrectable or lost (Table 14-6). -/
def partRead (s : State) (a : Nat) (bs : List Byte) : List Byte × State :=
  let tag := s.free + 1
  ((List.range bs.length).map (fun i =>
    if chosen tag i = true ∨ readFails s (a + i) 1 = true then Config.freeByte (tag + 1) i else bs.getD i 0), { s with free := tag + 1 })

/-! Home writes that a descriptor makes piece by piece, as the homes take them (R405). -/

/-- The pieces of a home write of `bs` from `a` on. -/
def writePieces (a : Nat) (bs : List Byte) : List (Nat × List Byte) :=
  (pieces a bs.length).map (fun p => (p.1, (bs.drop (p.1 - a)).take p.2))
/-- Writes the next pieces of started descriptor `k` until the homes hold one. -/
def writeRest (k : Nat) : State → List (Nat × List Byte) → State
  | s, [] => stMod s k (fun d => { d with rest := [] })
  | s, p :: t =>
    if storeHeld s p.1 p.2.length then stMod s k (fun d => { d with rest := p :: t })
    else
      let (m, s) := storeBytes s p.1 p.2
      writeRest k (stMod s k (fun d => { d with codes := d.codes ++ m.codes, told := d.told ++ m.told })) t
/-- TOKE of a COPY. -/
def cpToke (d : List Byte) : Bool := dByte d 49 / 128 == 1
/-- A descriptor whose last byte is written completes; the token counter of a COPY is incremented first. -/
def writesEnd (s : State) (x : Started) : State :=
  let d := x.desc
  let s := if dOp d == 0x01 && cpToke d && x.codes.isEmpty then
    tokInc s ((dNat d 40 8 - 2 ^ 40) / 0x02000000) (dByte d 49 % 64) none else s
  completeMet s x.id .none x.result
/-- A descriptor that is writing goes on as far as the homes take its bytes (R405). -/
def writesMore (s : State) (k : Nat) : State :=
  match stGet s k with
  | none => s
  | some x =>
    if x.wait ≠ .writes then s
    else
      let s := writeRest k s x.rest
      match stGet s k with
      | none => s
      | some x => if x.rest.isEmpty then writesEnd s x else s
/-- Every descriptor that is writing goes on. -/
def writesAll (s : State) : State := each s.hif.started s (fun s x => writesMore s x.id)
/-- A started descriptor writes what is left to write, then completes with what was met and a result. -/
def writeOut (s : State) (k : Nat) (m : Met) (result : W32) (l : List (Nat × List Byte)) : State :=
  writesMore (stMod s k (fun x =>
    { x with wait := .writes, rest := l, codes := x.codes ++ m.codes, told := x.told ++ m.told, result := result })) k

end Sys2Proof.Machine
end

