-- ==== Sys2Proof/Machine/Desc.lean ====
section
/-!
DEFINITION. Descriptors of data movement and engine control (R386 to R388), and transfers between package and host memory.
-/

namespace Sys2Proof.Machine

/-! NOP and COPY (R383, R386). -/

/-- The check of NOP. -/
def nopCheck (_ : State) (_ : QTab) (d : List Byte) : DCheck := ⟨commonForm d false && dLen d == 0 && dZero d 32 64, [], []⟩
/-- Completes at once. -/
def doneNow (s : State) (k : Nat) (_ : List Byte) : State := complete s k stDone 0
/-- Is the address in the engine windows? -/
def inWindows (a : Nat) : Bool := decide (2 ^ 40 ≤ a) && decide (a < 0x010080000000)
/-- SRC. -/
def cpSrc (d : List Byte) : Nat := dNat d 32 8
/-- DST. -/
def cpDst (d : List Byte) : Nat := dNat d 40 8
/-- SRC_HOST. -/
def cpSrcHost (d : List Byte) : Bool := dByte d 48 % 2 == 1
/-- DST_HOST. -/
def cpDstHost (d : List Byte) : Bool := dByte d 48 / 2 % 2 == 1
/-- The check of COPY. -/
def copyCheck (_ : State) (_ : QTab) (d : List Byte) : DCheck :=
  let n := dLen d
  let overlap := !cpSrcHost d && !cpDstHost d && decide (cpSrc d < cpDst d + n) && decide (cpDst d < cpSrc d + n)
  ⟨commonForm d false && dByte d 48 / 4 == 0 && dByte d 49 / 64 % 2 == 0 && dZero d 50 64 && !(cpSrcHost d && cpDstHost d) && !overlap
      && (if cpToke d then !cpDstHost d && inWindows (cpDst d) else dByte d 49 % 64 == 0),
    [⟨cpSrcHost d, false, cpSrc d, n, false⟩, ⟨cpDstHost d, false, cpDst d, n, true⟩], []⟩
/-- The bytes of a COPY have come, or what came of them before a failure, with what their read met: they are written.
(DEDUCED, log entry 92) -/
def copyWrite (s : State) (k : Nat) (d : List Byte) (m : Met) (bs : List Byte) : State :=
  if cpDstHost d then completeMet (hostWrite s (cpDst d) bs) k m 0
  else
    writeOut s k m 0 (if cpDst d < 2 ^ 40 then writePieces (cpDst d) bs else [(cpDst d, bs)])
/-- COPY acts. -/
def copyStart (s : State) (k : Nat) (d : List Byte) : State :=
  if dLen d = 0 then complete s k stDone 0
  else if cpSrcHost d then stMod s k (fun x => { x with wait := .hostRead })
  else
    let ((m, bs), s) := fetchBytes s (cpSrc d) (dLen d)
    let (bs, s) := if m.codes.isEmpty then (bs, s) else partRead s (cpSrc d) bs
    copyWrite s k d m bs

/-! Engines (R387). -/

/-- ENG of an ENGINE_LOAD. -/
def ldEng (d : List Byte) : Nat := dByte d 41 % 64
/-- INDEX of an ENGINE_LOAD. -/
def ldIndex (d : List Byte) : Nat := dNat d 42 2 % 16384
/-- Is an ENGINE_LOAD into engine `e` in progress? -/
def loading (s : State) (e : Nat) : Bool :=
  s.hif.started.any (fun x => dOp x.desc == 0x10 && x.wait == .hostRead && ldEng x.desc == e)
/-- Is the tile of engine `e` under test, or a spare being checked for it (R459)? -/
def underTest (s : State) (e : Nat) : Bool :=
  (List.range 72).any (fun t =>
    let x := tblGet (fun _ => Tile.init) s.inv.tiles t
    (x.testing && tileOf s e == some t) || x.checking == some e)
/-- Can engine `e` be started or loaded? -/
def engReady (s : State) (faulted : Bool) (e : Nat) : Bool :=
  let st := (engGet s e).st
  (st == .stopped || (faulted && st == .faulted)) && !loading s e && !underTest s e
/-- May the queue name every engine of the mask? -/
def maskOk (s : State) (t : QTab) (m : Nat) : Bool := (setBits 64 m).all (fun e => t.engs.getLsbD e && present s e)

/-- The check of ENGINE_LOAD. -/
def loadCheck (s : State) (t : QTab) (d : List Byte) : DCheck :=
  let n := dLen d
  ⟨commonForm d false && dByte d 40 / 2 == 0 && dByte d 41 / 64 == 0 && dNat d 42 2 / 16384 == 0 && dZero d 44 64 && n % 16 == 0
      && decide (ldIndex d * 16 + n ≤ 262144),
    [⟨dByte d 40 == 1, false, dNat d 32 8, n, false⟩],
    if n ≠ 0 ∧ maskOk s t (2 ^ ldEng d) = false then [stProt] else []⟩
/-- The instruction store with bytes written from index `idx` on. -/
def Engine.load (g : Engine) (idx : Nat) (bs : List Byte) : Engine :=
  { g with istore := (List.range (bs.length / 16)).foldl (fun t i =>
      tblSet (fun _ => 0) t (idx + i) (BitVec.ofNat 128 (leAt bs (16 * i) 16))) g.istore }
/-- The bytes of an ENGINE_LOAD have come, or what came of them before a failure. (DEDUCED, log entry 93) -/
def loadWrite (s : State) (k : Nat) (d : List Byte) (m : Met) (bs : List Byte) : State :=
  completeMet (engMod s (ldEng d) (fun g => g.load (ldIndex d) bs)) k m 0
/-- ENGINE_LOAD acts. -/
def loadStart (s : State) (k : Nat) (d : List Byte) : State :=
  if dLen d = 0 then complete s k stDone 0
  else if dByte d 40 = 1 then stMod s k (fun x => { x with wait := .hostRead })
  else
    let ((m, bs), s) := fetchBytes s (dNat d 32 8) (dLen d)
    let (bs, s) := if m.codes.isEmpty then (bs, s) else partRead s (dNat d 32 8) bs
    loadWrite s k d m bs
/-- ENGINE_LOAD waits for its engine (R62). -/
def loadWaits (s : State) (d : List Byte) : Bool := dLen d != 0 && !engReady s false (ldEng d)

/-- ENGINE_MASK of ENGINE_RESET and ENGINE_START. -/
def engMask (d : List Byte) : Nat := dNat d 32 8
/-- The check of ENGINE_RESET. -/
def resetCheck (s : State) (t : QTab) (d : List Byte) : DCheck :=
  ⟨commonForm d false && dLen d == 0 && dZero d 40 64 && engMask d != 0, [], if maskOk s t (engMask d) then [] else [stProt]⟩
/-- ENGINE_RESET waits for engines that run. -/
def resetWaits (s : State) (d : List Byte) : Bool :=
  (setBits 64 (engMask d)).any (fun e => [RunSt.running, .halted, .quiet].contains (engGet s e).st || underTest s e)
/-- ENGINE_RESET acts. -/
def resetAct (s : State) (k : Nat) (d : List Byte) : State :=
  complete (each (setBits 64 (engMask d)) s (fun s e =>
    engMod s e (fun g => if g.st = .faulted then { g with st := .stopped, exc := none } else g))) k stDone 0

/-- A tiller starts at `pc` for a started descriptor, with some scalar registers written. -/
def Engine.begin (g : Engine) (k pc : Nat) (regs : List (Nat × W64)) : Engine :=
  let g := g.counts 0
  let g := { g with st := .running, pc := BitVec.ofNat 14 pc, past := false, ending := false, exc := none, bar := none, owner := some k,
                    cutBy := 0, faultBy := 0, skip := false, single := false }
  regs.foldl (fun g r => g.setSreg r.1 r.2) g
/-- Starts the engines of a mask for a started descriptor in one engine cycle. -/
def beginEngines (s : State) (k mask pc : Nat) (regs : List (Nat × W64)) : State :=
  each (setBits 64 mask) s (fun s e => engMod s e (fun g => g.begin k pc regs))
/-- The check of ENGINE_START. -/
def startCheck (s : State) (t : QTab) (d : List Byte) : DCheck :=
  ⟨commonForm d false && dLen d == 0 && dNat d 40 2 / 16384 == 0 && decide (dByte d 42 < 2) && dZero d 43 48
      && (dByte d 42 == 1 || dZero d 48 64) && engMask d != 0, [], if maskOk s t (engMask d) then [] else [stProt]⟩
/-- Does some compute die read below 10 °C (R448)? -/
def tooCold (s : State) : Bool := (List.range 4).any (fun d => decide (tblGet (fun _ => 0) s.thm.dies d < 80))
/-- ENGINE_START waits for its engines, and for compute dies that are warm enough. -/
def startWaits (s : State) (d : List Byte) : Bool := !(setBits 64 (engMask d)).all (engReady s true) || tooCold s
/-- ENGINE_START acts. -/
def startAct (s : State) (k : Nat) (d : List Byte) : State :=
  let n := popc 64 (engMask d)
  let s := stMod s k (fun x => { x with wait := .engines, result := BitVec.ofNat 32 n, engLeft := BitVec.ofNat 64 (engMask d) })
  beginEngines s k (engMask d) (dNat d 40 2)
    (if dByte d 42 = 1 then [(1, BitVec.ofNat 64 (dNat d 48 8)), (2, BitVec.ofNat 64 (dNat d 56 8))] else [])

/-! PHASE_HINT (R388). -/

/-- The check of PHASE_HINT. -/
def hintCheck (_ : State) (_ : QTab) (d : List Byte) : DCheck :=
  ⟨commonForm d false && dLen d == 0 && dZero d 33 40 && dZero d 52 64, [], []⟩
/-- PHASE_HINT acts. -/
def hintAct (s : State) (k : Nat) (d : List Byte) : State :=
  complete (armHint s (dByte d 32) (BitVec.ofNat 64 (dNat d 40 8)) (dNat d 48 4)) k stDone 0

/-! The rows of the table. -/

/-- NOP_DESC (R383). -/
def execNopDesc (q : Nat) (s : State) : Host.Outcome State Fault Refusal := run s (fun s => descRow 0x00 nopCheck noWait doneNow s q)
/-- COPY (R386). -/
def execCopy (q : Nat) (s : State) : Host.Outcome State Fault Refusal :=
  run s (fun s => settle (descRow 0x01 copyCheck noWait copyStart s q))
/-- ENGINE_LOAD (R387). -/
def execEngineLoad (q : Nat) (s : State) : Host.Outcome State Fault Refusal := run s (fun s => descRow 0x10 loadCheck loadWaits loadStart s q)
/-- ENGINE_RESET (R387). -/
def execEngineReset (q : Nat) (s : State) : Host.Outcome State Fault Refusal :=
  run s (fun s => descRow 0x11 resetCheck resetWaits resetAct s q)
/-- ENGINE_START (R387). -/
def execEngineStart (q : Nat) (s : State) : Host.Outcome State Fault Refusal :=
  run s (fun s => descRow 0x12 startCheck startWaits startAct s q)
/-- PHASE_HINT (R388). -/
def execPhaseHint (q : Nat) (s : State) : Host.Outcome State Fault Refusal := run s (fun s => descRow 0x13 hintCheck noWait hintAct s q)

end Sys2Proof.Machine
end

