-- ==== Sys2Proof/Machine/Fabric.lean ====
section
/-!
DEFINITION. The fabric side of the chip: ports, routing of a packet (R317 to R322), circuits a packet travels on (R340 to
R342), and the injection of packets at the port-injection arbiters (R288, R302, R354).
-/

namespace Sys2Proof.Machine

/-! Ports. -/

/-- Port `p`. -/
def portGet (s : State) (p : Nat) : Port := tblGet (fun _ => Port.init) s.link.ports p
/-- Sets port `p`. -/
def portPut (s : State) (p : Nat) (x : Port) : State :=
  { s with link := { s.link with ports := tblSet (fun _ => Port.init) s.link.ports p x } }
/-- Virtual channel `v` of a port. -/
def Port.vc (x : Port) (v : Nat) : Vc := tblGet Vc.init x.vcs v
/-- Sets virtual channel `v` of a port. -/
def Port.setVc (x : Port) (v : Nat) (c : Vc) : Port := { x with vcs := tblSet Vc.init x.vcs v c }
/-- Virtual channel `v` of port `p`. -/
def vcGet (s : State) (p v : Nat) : Vc := (portGet s p).vc v
/-- Sets virtual channel `v` of port `p`. -/
def vcPut (s : State) (p v : Nat) (c : Vc) : State := portPut s p ((portGet s p).setVc v c)
/-- Is port `p` fitted and UP? -/
def portUp (s : State) (p : Nat) : Bool := decide (p < portsOf s) && (portGet s p).st == .up
/-- Has port `p` the reserved role (R312)? -/
def reservedPort (s : State) (p : Nat) : Bool := s.rt.resv.getLsbD p

/-! Chips, slices, quiet state. -/

/-- FIELD of a chip number (Table 2-4). -/
def chipField (c : W16) : Nat := fld c 12 4
/-- BLOCK of a chip number. -/
def chipBlock (c : W16) : Nat := fld c 9 3
/-- Coordinate k (0 x, 1 y, 2 z) of a chip number. -/
def chipCoord (c : W16) (k : Nat) : Nat := fld c (6 - 3 * k) 3
/-- Is a chip in the fence list? -/
def fenced (s : State) (c : W16) : Bool := s.fence.chips.contains c.toNat
/-- Is the chip quiet: its lease has lapsed, or its own number is fenced (R414, R417)? -/
def quiet (s : State) : Bool := s.lease.st == 2 || fenced s s.rt.chip
/-- Has a reclaim cut work off (R423)? -/
def cutOff (s : State) : Bool := decide (2 ≤ s.lease.phase.toNat ∧ s.lease.phase.toNat ≤ 5)
/-- Is every received request answered RECLAIMED (R423)? -/
def flushing (s : State) : Bool := decide (3 ≤ s.lease.phase.toNat ∧ s.lease.phase.toNat ≤ 5)

/-! Drops. -/

/-- A packet dropped under R317 or R322. -/
def routeDrop (s : State) : State := event { s with rt := { s.rt with routeDrop := satInc s.rt.routeDrop } } .rt 5
/-- A packet dropped under R320. -/
def sliceDrop (s : State) : State := event { s with rt := { s.rt with sliceDrop := satInc s.rt.sliceDrop } } .rt 4
/-- A packet dropped under R326. -/
def ageDrop (s : State) : State := event { s with rt := { s.rt with ageDrop := satInc s.rt.ageDrop } } .rt 3
/-- A packet from a fenced chip dropped (R416). (DEDUCED, log entry 82) -/
def fenceDrop (s : State) : State := { s with fence := { s.fence with drop := satInc s.fence.drop } }

/-! Routing (R317). -/

/-- Is a packet type a routed request? -/
def isReq (t : Nat) : Bool := t == 0 || t == 1 || t == 2 || t == 6
/-- The routing bank that an EPOCH bit names. -/
def bankOfEpoch (s : State) (e : Bool) : RBank := if e then s.rt.bankB else s.rt.bankA
/-- TORUS_PORTS of dimension k, direction d. -/
def RBank.torusPorts (b : RBank) (k d : Nat) : W64 := tblGet (fun _ => 0) b.torus (2 * k + d)
/-- FIELD_PORTS of a block. -/
def RBank.fieldPorts (b : RBank) (i : Nat) : W64 := tblGet (fun _ => 0) b.field i
/-- GRID_PORTS of a field. -/
def RBank.gridPorts (b : RBank) (i : Nat) : W64 := tblGet (fun _ => 0) b.grid i
/-- May slice `n` be forwarded? -/
def RBank.permits (b : RBank) (n : Nat) : Bool := (tblGet (fun _ => 0) b.permit (n / 32)).getLsbD (n % 32)
/-- The ports of a mask that are UP, ascending. -/
def upPorts (s : State) (m : W64) : List Nat := (setBits 64 m.toNat).filter (portUp s)

/-- What routing makes of a packet: delivered here; dropped, where the bank names ports but none is UP (`named`) or no route at
all; or sent on a port of a mask on a virtual channel. `twice`: it meets a second date line, or would have on the way it was to go. -/
inductive Route2 where
  | deliver
  | drop (named twice : Bool)
  | send (mask : W64) (vc : Nat) (p : Packet) (twice : Bool)

/-- A mask turned into a route. -/
def viaMask (s : State) (m : W64) (vc : Nat) (p : Packet) (twice : Bool) : Route2 :=
  if m = 0 then .drop false twice else if (upPorts s m).isEmpty then .drop true twice else .send m vc p twice

/-- The virtual channel and the RFLAGS of a packet that leaves in the torus stage in dimension `k`, direction `d`, with the
date-line bit `dl` it has so far (R317, R318). -/
def torusHop (b : RBank) (k d : Nat) (dl : Bool) (p : Packet) : Nat × Packet × Bool :=
  let date := b.date.getLsbD (2 * k + d)
  let dl' := dl || date
  let vc := if isReq p.ptype.toNat then (if dl' then 1 else 0) else (if dl' then 3 else 2)
  (vc, { p with rflags := BitVec.ofNat 4 (3 + 4 * b2n dl' + 8 * d) }, date && dl)

/-- The decision of R317 for a packet that came in on port `inp`, or is injected here. -/
def routeOf (s : State) (inp : Option Nat) (p : Packet) : Route2 :=
  let me := s.rt.chip
  let b := bankOfEpoch s p.epoch
  let far := if isReq p.ptype.toNat then 4 else 5
  if p.dst = me then .deliver
  else if chipField p.dst ≠ chipField me then
    if p.rflags.getLsbD 0 then .drop false false
    else viaMask s (b.gridPorts (chipField p.dst)) far { p with rflags := putBit p.rflags 0 true } false
  else if chipBlock p.dst ≠ chipBlock me then
    if p.rflags.getLsbD 1 then .drop false false
    else viaMask s (b.fieldPorts (chipBlock p.dst)) far { p with rflags := putBit (putBit p.rflags 0 true) 1 true } false
  else
    let k := ((List.range 3).find? (fun k => chipCoord p.dst k != chipCoord me k)).getD 0
    let arrived := match inp with
      | some q => (b.torusPorts k 0).getLsbD q || (b.torusPorts k 1).getLsbD q
      | none => false
    let code := fld b.dir (16 * k + 2 * chipCoord p.dst k) 2
    if !arrived && (code == 0 || code == 3) then .drop false false
    else
      let d0 := code - 1
      let d := if arrived then b2n (p.rflags.getLsbD 3)
        else if (upPorts s (b.torusPorts k d0)).isEmpty && !(upPorts s (b.torusPorts k (1 - d0))).isEmpty then 1 - d0 else d0
      let h := torusHop b k d (arrived && p.rflags.getLsbD 2) p
      viaMask s (b.torusPorts k d) h.1 h.2.1 h.2.2

/-- The port of a mask that a packet leaves on (R319). -/
def pickPort (s : State) (m : W64) (vc : Nat) (p : Packet) : Nat :=
  let ups := upPorts s m
  if s.rt.ctrl.getLsbD 0 then
    match ups with
    | [] => 0
    | x :: t => t.foldl (fun b y => if (vcGet s b vc).cred < (vcGet s y vc).cred then y else b) x
  else ups.getD ((p.src.toNat + p.dst.toNat) % max 1 ups.length) 0

/-- Notes a second date line met on the way out of port `p`; a packet that no port takes names port 0.
(DESIGN CHOICE, log entry 140) -/
def noteTwice (s : State) (p : Nat) (twice : Bool) : State := if twice then event s .rt 7 p else s
/-- A packet that routing drops (R317, R322). -/
def dropRouted (s : State) (twice : Bool) : State := routeDrop (noteTwice s 0 twice)

/-! Circuits (R340). -/

/-- Circuit entry `n`. -/
def cktGet (s : State) (n : Nat) : Ckt := tblGet (fun _ => Ckt.free) s.ckt.ents n
/-- Sets circuit entry `n`. -/
def cktPut (s : State) (n : Nat) (c : Ckt) : State :=
  { s with ckt := { s.ckt with ents := tblSet (fun _ => Ckt.free) s.ckt.ents n c } }
/-- The entry with the key (IN, SLICE, SRC, DST), not FREE. -/
def cktFind (s : State) (inp : Nat) (slice : BitVec 12) (src dst : W16) : Option Nat :=
  (List.range 256).find? (fun n =>
    let c := cktGet s n
    c.st != 0 && c.inp.toNat == inp && c.slice == slice && c.src == src && c.dst == dst)
/-- The circuit that a locally injected packet travels on: none, one that is ACTIVE, or one that is BROKEN. -/
def localCircuit (s : State) (p : Packet) : Option Nat :=
  if (p.ptype = 1 ∨ p.ptype = 6) ∧ p.mcast = false then
    match cktFind s 0x7F p.slice p.src p.dst with
    | some n => if (cktGet s n).st = 2 ∨ (cktGet s n).st = 3 then some n else none
    | none => none
  else none

/-! Parking at port-injection arbiters and looping back. -/

/-- Has requester `r` room at the port-injection arbiter of port `p` (R288)? -/
def injRoom (s : State) (p r : Nat) : Bool := decide (((portGet s p).inj.filter (fun i => i.r == r)).length < 16)
/-- Parks a packet at the port-injection arbiter of port `p`; one offered to a full queue waits outside it, and its requester is
stalled (R288). -/
def park (s : State) (p : Nat) (i : Inj) : State :=
  let x := portGet s p
  portPut s p (if injRoom s p i.r && !x.stall.any (fun j => j.r == i.r) then { x with inj := x.inj ++ [i] }
    else { x with stall := x.stall ++ [i] })
/-- An entry of requester `r` at port `p` has become free: the oldest packet that waits for one is parked. -/
def unstall (s : State) (p r : Nat) : State :=
  let x := portGet s p
  match x.stall.find? (fun j => j.r == r) with
  | some i => if injRoom s p r then portPut s p { x with inj := x.inj ++ [i], stall := x.stall.erase i } else s
  | none => s
/-- A packet that loops back inside the package (R2). -/
def loopBack (s : State) (p : Packet) : State := { s with rmt := { s.rmt with loop := s.rmt.loop ++ [p] } }

/-- A packet of this chip before it is routed: own chip and slice, current bank, nothing counted (R318, R323). -/
def ownPacket (s : State) (ptype : Nat) (dst : W16) (off : Nat) (payload : List Byte) : Packet :=
  { ptype := BitVec.ofNat 4 ptype, epoch := s.rt.cur, mcast := false, slice := s.rt.slice, rflags := 0, hops := 0, age := 0,
    dst := dst, src := s.rt.chip, offset := BitVec.ofNat 48 off, tag := 0, status := 0, aop := 0, last := false, stream := 0,
    aux := 0, payload := payload }

/-- Sends a response: it loops back, waits at a port for requester 70, or is dropped for want of a route. -/
def sendResponse (s : State) (p : Packet) : State :=
  match routeOf s none p with
  | .deliver => loopBack s p
  | .drop _ twice => dropRouted s twice
  | .send m vc q twice =>
    let port := pickPort s m vc q
    park (noteTwice s port twice) port ⟨70, vc, q, none⟩

/-- A WRITE_ACK to the source of a packet, in the packet's slice, so that the source takes it in (R320).
(DEDUCED, log entry 141) -/
def ackTo (s : State) (p : Packet) (status : Byte) (aux : Nat) : State :=
  sendResponse s { ownPacket s 4 p.src 0 [] with slice := p.slice, tag := p.tag, status := status, aux := BitVec.ofNat 64 aux }

/-- A packet of a circuit, or one on VC7 with no entry, is dropped (R342): counted, and its source told LINK_LOST. -/
def cktDrop (s : State) (n : Nat) (p : Packet) : State :=
  ackTo (event { s with ckt := { s.ckt with drop := satInc s.ckt.drop } } .ckt 2 n) p stLink 0

/-! Reads of HBM by the device's own agents (requesters 72 to 74). -/

/-- A read of HBM by an own agent: its bytes, with what it meets. -/
def ownRead (s : State) (a len : Nat) : (Met × List Byte) × State :=
  let (m, s) := readsMeet s 0 [(a, len)]
  ((m, memRead s.mem a len), s)

/-! Ranks (R32, R313, R314). -/

/-- The rank cache with an entry for `r`; of 256 entries one gives way, which the spec leaves open. -/
def cacheRank (s : State) (r : Nat) (v : W32) : State :=
  let put (s : State) : State := { s with rt := { s.rt with ranks := tblSet (fun _ => 0) s.rt.ranks r (v.toNat + 1) } }
  if s.rt.ranks.length < 256 then put s
  else
    let (f, s) := drawFree s
    let victim := (s.rt.ranks.getD (f.toNat % s.rt.ranks.length) (0, 0)).1
    put { s with rt := { s.rt with ranks := tblDrop (fun k => k == victim) s.rt.ranks } }
/-- The chip that an entry of the rank table names, if it is valid (R313). -/
def rankChip (v : W32) : Option W16 :=
  if v.getLsbD 16 ∧ fld v 17 15 = 0 ∧ fld v 12 4 < 12 then some (v.setWidth 16) else none
/-- Translates a rank: the chip, or what refuses the request. (DESIGN CHOICE, log entry 81) -/
def rankLookup (s : State) (r : Nat) : (Met × W16) × State :=
  if s.rt.rankCount.toNat ≤ r then ((⟨[stProt], []⟩, 0), s)
  else
    let hit := tblGet (fun _ => 0) s.rt.ranks r
    let answer (v : W32) : Met × W16 := match rankChip v with
      | some c => (.none, c)
      | none => (⟨[stProt], []⟩, 0)
    if hit ≠ 0 then (answer (BitVec.ofNat 32 (hit - 1)), s)
    else
      let ((m, bs), s) := ownRead s (s.rt.rankBase.toNat + 4 * r) 4
      if !m.codes.isEmpty then ((m, 0), s)
      else
        let v : W32 := BitVec.ofNat 32 (leNat bs)
        (answer v, cacheRank s r v)

end Sys2Proof.Machine
end

