-- ==== Sys2Proof/Machine/Remote.lean ====
section
/-!
DEFINITION. Remote operations at their source (R353 to R355, R363 to R365), the mirror sender and sy.commit (R403 to R408,
R420, R421): operations, their packets, their completion.
-/

namespace Sys2Proof.Machine

/-! Operations. -/

/-- An operation by its number. -/
def opGet (s : State) (k : Nat) : Option RmtOp := s.rmt.ops.find? (fun o => o.id == k)
/-- Changes an operation. -/
def opMod (s : State) (k : Nat) (f : RmtOp → RmtOp) : State :=
  { s with rmt := { s.rmt with ops := s.rmt.ops.map (fun o => if o.id = k then f o else o) } }
/-- Removes an operation. -/
def opDrop (s : State) (k : Nat) : State := { s with rmt := { s.rmt with ops := s.rmt.ops.filter (fun o => o.id != k) } }
/-- Has an operation nothing left to send or to settle? -/
def RmtOp.isOver (o : RmtOp) : Bool := o.todo.isEmpty && o.left == 0
/-- The status of an operation that is over (R9). -/
def RmtOp.status (o : RmtOp) : Byte := pickStatus o.codes

/-- A new operation; its packets follow with `drive`. (DEDUCED, log entry 84) -/
def startOp (s : State) (owner : Owner) (r ptype : Nat) (dst : W16) (todo : List (Nat × Nat × Nat)) (m : Met)
    (f : RmtOp → RmtOp := fun o => o) : State :=
  let o : RmtOp :=
    { id := s.rmt.nextOp, owner := owner, r := r, ptype := ptype, mcast := false, dst := dst, aop := 0, opnd := 0, swap := 0,
      todo := if m.codes.isEmpty then todo else [], sent := 0, left := 0, bytes := 0, codes := m.codes, told := m.told, lost := [],
      fail := none, timed := false, old := 0, got := [] }
  { s with rmt := { s.rmt with ops := s.rmt.ops ++ [f o], nextOp := s.rmt.nextOp + 1 } }

/-- Starts an operation on the fabric address `fa`, whose upper bits name a rank if `rank` (R31, R32, R144). -/
def startRemote (s : State) (owner : Owner) (r ptype aop : Nat) (fa : W64) (rank : Bool) (todo : List (Nat × Nat × Nat))
    (f : RmtOp → RmtOp) : State :=
  let pre : List Byte := (if s.rt.slice = 0 then [stProt] else []) ++ (if ptype = 2 ∧ aop = 3 ∧ s.rt.repro = true then [stProt] else [])
  if rank && pre.isEmpty then
    let ((m, c), s) := rankLookup s (fld fa 48 16)
    startOp s owner r ptype c todo m f
  else startOp s owner r ptype (BitVec.ofNat 16 (fld fa 48 16)) todo ⟨pre, []⟩ f

/-- A failed packet of an operation is noted; the address of the first is kept (R363). -/
def RmtOp.failAt (o : RmtOp) (off n tag : Nat) : RmtOp :=
  { o with lost := o.lost ++ [(off, n)], fail := o.fail.or (some (BitVec.ofNat 64 (o.dst.toNat * 2 ^ 48 + off % 2 ^ 48), tag)) }

/-- The places and bytes of one packet that starts at offset `cur` with room for `room` bytes: runs that follow each other in
the target join, and a packet ends at the end of the room (R354). -/
def takeRuns : Nat → Nat → List (Nat × Nat × Nat) → List (Nat × Nat) × List (Nat × Nat × Nat)
  | _, _, [] => ([], [])
  | room, cur, (a, n, l) :: t =>
    if a ≠ cur ∨ room = 0 then ([], (a, n, l) :: t)
    else if n ≤ room then
      let r := takeRuns (room - n) (cur + n) t
      ((l, n) :: r.1, r.2)
    else ([(l, room)], (a + room, n - room, l + room) :: t)
/-- The bytes at a list of places. -/
def gather (s : State) (segs : List (Nat × Nat)) : List Byte := segs.flatMap (fun p => memRead s.mem p.1 p.2)
/-- All bytes of a list of places. -/
def segLen (segs : List (Nat × Nat)) : Nat := segs.foldl (fun n p => n + p.2) 0

/-- An entry of the outstanding requests by its tag. -/
def outFind (s : State) (tag : Nat) : Option Outst := s.rmt.out.find? (fun o => o.tag == tag)
/-- Is an outstanding-request entry free (R354)? -/
def outRoom (s : State) : Bool := decide (s.rmt.out.length < 4096)
/-- A tag from `n` on that no outstanding request holds. -/
def freeTag (l : List Outst) (n : Nat) : Nat :=
  ((List.range (l.length + 1)).map (fun i => (n + i) % 65536)).find? (fun t => !l.any (fun o => o.tag == t)) |>.getD 0
/-- Takes an entry for a request: the packet leaves with its tag. -/
def takeEntry (s : State) (o : Outst) : Nat × State :=
  let t := freeTag s.rmt.out s.rmt.nextTag
  (t, { s with rmt := { s.rmt with out := s.rmt.out ++ [{ o with tag := t }], nextTag := (t + 1) % 65536 } })
/-- Do two outstanding or coming mirror writes to one chip share a byte (R404)? -/
def mirrorClash (s : State) (dst : W16) (off n : Nat) : Bool :=
  let hit (o : Outst) : Bool := o.ptype == 6 && o.dst == dst && decide (o.off < off + n) && decide (off < o.off + o.len)
  s.rmt.out.any hit || (List.range (portsOf s)).any (fun p => ((portGet s p).inj ++ (portGet s p).stall).any (fun i => (i.o.map hit).getD false))

/-! Multicast (R331, R332). -/

/-- The replication entry of a group: cached, or read; of 64 cached entries one gives way, which the spec leaves open. -/
def groupLookup (s : State) (g : Nat) : (Met × List Byte) × State :=
  let hit := tblGet (fun _ => []) s.rt.groups g
  if hit ≠ [] then ((.none, hit), s)
  else
    let ((m, bs), s) := ownRead s (s.rt.mcBase.toNat + 256 * g) 256
    if !m.codes.isEmpty then ((m, []), s)
    else
      let put (s : State) : State := { s with rt := { s.rt with groups := tblSet (fun _ => []) s.rt.groups g bs } }
      if s.rt.groups.length < 64 then ((.none, bs), put s)
      else
        let (f, s) := drawFree s
        let victim := (s.rt.groups.getD (f.toNat % s.rt.groups.length) (0, [])).1
        ((.none, bs), put { s with rt := { s.rt with groups := tblDrop (fun k => k == victim) s.rt.groups } })
/-- Is a replication entry VALID, of slice `n`, with no more than 30 branches and every reserved bit 0? One that the device rejects
under R6 is as one that is not VALID. (DEDUCED, log entry 142) -/
def groupOk (e : List Byte) (n : BitVec 12) : Bool :=
  leAt e 0 2 == n.toNat + 2 ^ 15 && leAt e 2 2 / 2 == 0 && decide (leAt e 6 2 ≤ 30) && leAt e 8 8 == 0
    && (List.range 30).all (fun b => leAt e (16 + 8 * b) 2 / 64 == 0 && leAt e (22 + 8 * b) 2 == 0)
/-- The branches of a replication entry: port, child, members reached. (DEDUCED, log entry 142) -/
def groupBranches (e : List Byte) : List (Nat × Nat × Nat) :=
  (List.range (leAt e 6 2)).map (fun n => (leAt e (16 + 8 * n) 1, leAt e (18 + 8 * n) 2, leAt e (20 + 8 * n) 2))

/-- The copy of a multicast packet for a branch port: RFLAGS, VC and date lines by the port's role; none where it would take a second
grid or field hop (R317, R332, Table 17-8). -/
def branchCopy (s : State) (inp : Option Nat) (port : Nat) (p : Packet) : Option (Nat × Packet × Bool) :=
  let b := bankOfEpoch s p.epoch
  let dims := ((List.range 3).flatMap (fun k => [(k, 0), (k, 1)])).find? (fun x => (b.torusPorts x.1 x.2).getLsbD port)
  match dims with
  | some (k, d) =>
    let arrived := match inp with
      | some q => (b.torusPorts k 0).getLsbD q || (b.torusPorts k 1).getLsbD q
      | none => false
    some (torusHop b k d (arrived && p.rflags.getLsbD 2) p)
  | none =>
    if (List.range 8).any (fun i => (b.fieldPorts i).getLsbD port) then
      if p.rflags.getLsbD 1 then none else some (4, { p with rflags := putBit (putBit p.rflags 0 true) 1 true }, false)
    else if p.rflags.getLsbD 0 then none else some (4, { p with rflags := putBit p.rflags 0 true }, false)

/-- Copies a multicast packet onto its branches with `place`; answers the pruned branches with their status and members (R332). -/
def spread (s : State) (inp : Option Nat) (e : List Byte) (p : Packet) (place : State → Nat → Nat → Packet → State) :
    List (Byte × Nat) × State :=
  (groupBranches e).foldl (fun r b =>
    if fenced r.2 (BitVec.ofNat 16 b.2.1) then (r.1 ++ [(stFenced, b.2.2)], r.2)
    else if !portUp r.2 b.1 then (r.1 ++ [(stLink, b.2.2)], r.2)
    else
      match branchCopy r.2 inp b.1 p with
      | none => (r.1, routeDrop r.2)
      | some c => (r.1, place (noteTwice r.2 b.1 c.2.2) b.1 c.1 c.2.1)) ([], s)

/-- What a multicast write that was not whole, or did not go well everywhere, tells at its source: a record for each pruned branch
where some member was not delivered (R333), one for each other status that a member answered with (R9).
(DEDUCED, log entry 143) -/
def mcRecords (s : State) (o : Outst) : State :=
  let tell (s : State) (c : Byte × Nat) : State :=
    record s 5 c.1 7 0xFF 0 (leBytes 4 (evGet s .rt).toNat ++ leBytes 4 0 ++ leBytes 8 c.2)
  each (o.bad.map (fun c => (c, 1))) (if o.acks = o.want then s else each o.cut s tell) tell

/-! The region table (R357). -/

/-- Region entry `n`. -/
def rgnGet (s : State) (n : Nat) : BitVec 256 := tblGet (fun _ => 0) s.rmt.rgn n
/-- The lowest entry that a request of a slice at an offset matches. -/
def rgnMatch (s : State) (slice : BitVec 12) (off : Nat) : Option (BitVec 256) :=
  ((List.range 64).map (rgnGet s)).find? (fun g =>
    g.getLsbD 0 && fld g 8 12 == slice.toNat && decide (fld g 64 48 ≤ off) && decide (off < fld g 64 48 + fld g 128 41))
/-- The local address of a request's range, if an entry matches, holds it whole and grants the kind (bit `perm`). -/
def rgnLocal (s : State) (slice : BitVec 12) (off len perm : Nat) : Option Nat :=
  match rgnMatch s slice off with
  | some g => if off + len ≤ fld g 64 48 + fld g 128 41 ∧ g.getLsbD perm then some (off - fld g 64 48 + fld g 192 48) else none
  | none => none
/-- The local range of a write to this chip's own fabric window in its slice. -/
def writeRegion (s : State) (off len : Nat) : Option Nat := rgnLocal s s.rt.slice off len 2

/-! Settling a packet. -/

/-- A request is settled: its entry is freed and its operation hears of what it met. (DEDUCED, log entry 85) -/
def settleMet (s : State) (o : Outst) (m : Met) (n : Nat) : State :=
  let s := { s with rmt := { s.rmt with out := s.rmt.out.filter (fun x => x.tag != o.tag) } }
  opMod s o.op (fun x =>
    let x := { x with left := x.left - 1, bytes := x.bytes + (if m.codes.isEmpty then n else 0) }
    if m.codes.isEmpty then x else { x with codes := x.codes ++ m.codes, told := x.told ++ m.told }.failAt o.off o.len o.tag)
/-- A request is settled with a status. -/
def settleOut (s : State) (o : Outst) (status : Byte) (n : Nat) : State := settleMet s o ⟨if status = stDone then [] else [status], []⟩ n
/-- A piece of an operation fails at the source for one or more reasons: nothing is injected for it. -/
def failPiece (s : State) (k off n : Nat) (m : Met) (todo : List (Nat × Nat × Nat)) : State :=
  opMod s k (fun x => { x with todo := todo, codes := x.codes ++ m.codes, told := x.told ++ m.told }.failAt off n 0)

/-- Members of a multicast write are accounted for (R333). (DEDUCED, log entry 143) -/
def mcSettle (s : State) (tag delivered pruned : Nat) (status : Byte) : State :=
  match outFind s tag with
  | none => s
  | some o =>
    let o := { o with acks := o.acks + delivered, left := o.left - (delivered + pruned),
                      cut := if pruned = 0 then o.cut else o.cut ++ [(status, pruned)],
                      bad := if delivered = 0 ∨ status = stDone then o.bad else o.bad ++ [status] }
    if o.left ≠ 0 then { s with rmt := { s.rmt with out := s.rmt.out.map (fun x => if x.tag = tag then o else x) } }
    else
      let s := mcRecords s o
      let s := opMod s o.op (fun x => { x with old := if o.acks < x.old.toNat then BitVec.ofNat 64 o.acks else x.old })
      settleOut s o (if o.acks = o.want then stDone else stPartial) o.len

/-! Sending the next packet of an operation. -/

/-- The status that stops a packet of an operation at its source, whatever its route (R31, R365, R414, R423). -/
def sourceCodes (s : State) (o : RmtOp) (off n : Nat) : List Byte :=
  (if cutOff s && !((s.lease.phase == 2 || s.lease.phase == 3) && o.r == 72) then [stReclaimed] else [])
    ++ (if quiet s then [stLease] else [])
    ++ (if o.ptype ≠ 7 ∧ 2 ^ 40 < off + n then [stProt] else [])
    ++ (if o.ptype ≠ 7 ∧ o.mcast = false ∧ fenced s o.dst = true then [stFenced] else [])

/-- The bytes of a fabric instruction's source at a list of places: those that an outside write has met are unspecified (R77). -/
def gatherOwn (s : State) (e ord : Nat) (segs : List (Nat × Nat)) : List Byte × State :=
  match (engGet s e).exec.find? (fun x => x.i.ord == ord) with
  | none => (gather s segs, s)
  | some x => segs.foldl (fun t p =>
      let o := p.1 - winBase e
      let acc := decide (0x1800000 ≤ o)
      let (bs, s) := x.i.bytesOf t.2 e acc (if acc then o - 0x1800000 else o) p.2
      (t.1 ++ bs, s)) ([], s)
/-- The first 16 bytes of the commit record of entry `n` (Table 21-2). -/
def commitHead (s : State) (n : Nat) (step : W64) : List Byte :=
  leBytes 8 step.toNat ++ leBytes 2 s.rt.chip.toNat ++ leBytes 2 s.rt.slice.toNat ++ [BitVec.ofNat 8 n, 0, 0, 0]
/-- The commit record that begins with `head`, with the beat at which it is sent (Table 21-2). -/
def commitRecord (s : State) (head : List Byte) : List Byte :=
  let head := head.take 16 ++ leBytes 8 s.beat.now.toNat ++ leBytes 4 0
  let tail := leBytes 32 0
  head ++ leBytes 4 (crc32 (head ++ leBytes 4 0 ++ tail)).toNat ++ tail
/-- The bytes that a packet carries: those of a commit record or a mirrored range, which the operation holds, or those read from
memory, with what their read meets. -/
def payloadOf (s : State) (o : RmtOp) (segs : List (Nat × Nat)) : (Met × List Byte) × State :=
  let read (s : State) : (Met × List Byte) × State :=
    let (m, s) := readsMeet s (if o.r = 69 then stProt else 0) (segs.filter (fun p => decide (p.1 < 2 ^ 40)))
    ((m, gather s segs), s)
  if o.ptype = 0 then ((.none, []), s)
  else if o.ptype = 2 then ((.none, if o.aop = 2 then leBytes 8 o.swap.toNat else []), s)
  else
    match o.owner with
    | .commit _ _ _ => ((.none, commitRecord s o.got), s)
    | .range _ _ => ((.none, o.got), s)
    | .instr e ord => let (bs, s) := gatherOwn s e ord segs; ((.none, bs), s)
    | _ => read s

/-- The packet of an operation at offset `off` for `n` bytes. -/
def opPacket (s : State) (o : RmtOp) (off n : Nat) (payload : List Byte) : Packet :=
  let p := ownPacket s o.ptype o.dst off payload
  if o.ptype = 0 then { p with aux := BitVec.ofNat 64 n }
  else if o.ptype = 2 then { p with aop := BitVec.ofNat 3 o.aop, aux := o.opnd }
  else if o.ptype = 7 then
    { p with dst := 0, offset := BitVec.ofNat 48 (o.swap.toNat % 2 ^ 32 + (o.sent / 4096) * 2 ^ 32), aux := o.opnd,
             stream := BitVec.ofNat 16 (fld s.shf.jrnlDest 16 16), last := decide (segLen (o.todo.map (fun t => (t.1, t.2.1))) = n) }
  else { p with mcast := o.mcast }

/-- The way that an own unicast packet takes now: back inside, to a port's arbiter on a virtual channel, or nowhere, with a status. -/
inductive Way where
  | inside
  | port (p vc : Nat) (k : Packet) (twice : Bool)
  | fails (status : Byte) (s : State)
/-- The way of a packet of this chip (R317, R322, R340). -/
def ownWay (s : State) (p0 : Packet) : Way :=
  match localCircuit s p0 with
  | some k => if (cktGet s k).st = 2 then .port (cktGet s k).out.toNat 7 p0 false else .fails stLink s
  | none =>
    match routeOf s none p0 with
    | .deliver => .inside
    | .drop named twice => .fails (if named then stLink else stProt) (dropRouted s twice)
    | .send mask vc q twice => .port (pickPort s mask vc q) vc q twice

/-- One packet of operation `o` is made and sent on its way; none when it has to wait (R288, R354, R404). -/
def offer (s : State) (o : RmtOp) : Option State :=
  match o.todo with
  | [] => none
  | (a, _, _) :: _ =>
    let off := if o.ptype = 7 then a else a % 2 ^ 48
    let room := if o.mcast then 4096 else 4096 - a % 4096
    let (segs, rest) := takeRuns room a o.todo
    let n := segLen segs
    let codes := sourceCodes s o off n
    let entry : Outst := ⟨0, o.id, o.ptype, o.dst, off, n, segs, 0, 0, 0, [], []⟩
    let fail (s : State) (m : Met) : Option State := some (failPiece s o.id off n m rest)
    let sent (s : State) : State := opMod s o.id (fun x => { x with todo := rest, sent := x.sent + n, left := x.left + 1 })
    if !codes.isEmpty then fail s ⟨codes, []⟩
    else if o.ptype = 6 && mirrorClash s o.dst off n then none
    else if o.ptype = 7 then
      let port := fld s.shf.jrnlDest 0 6
      if !(portUp s port && reservedPort s port) then fail s ⟨[stLink], []⟩
      else if !injRoom s port o.r then none
      else
        let ((m, bs), s') := payloadOf s o segs
        if !m.codes.isEmpty then fail s' m
        else some (park (opMod s' o.id (fun x => { x with todo := rest, sent := x.sent + n })) port ⟨o.r, 0, opPacket s' o off n bs, none⟩)
    else if o.mcast then
      if !outRoom s then none
      else
        let ((m, e), s1) := groupLookup s o.dst.toNat
        if !m.codes.isEmpty then fail s1 m
        else if !groupOk e s.rt.slice then fail (sliceDrop s1) ⟨[stProt], []⟩
        else
          let ((m, bs), s2) := payloadOf s1 o segs
          if !m.codes.isEmpty then fail s2 m
          else
            let w := leAt e 4 2
            let (tag, s3) := takeEntry (sent s2) { entry with want := w, left := w }
            let p := { opPacket s2 o off n bs with tag := BitVec.ofNat 16 tag }
            let (cut, s4) := spread s3 none e p (fun s port vc q => park s port ⟨o.r, vc, q, none⟩)
            let s5 := if leAt e 2 1 % 2 = 1 then loopBack s4 p else s4
            let s6 := each cut s5 (fun s c => mcSettle s tag 0 c.2 c.1)
            some (if w = 0 then mcSettle s6 tag 0 0 0 else s6)
    else
      let p0 := opPacket s o off n []
      match ownWay s p0 with
      | .fails st s' => fail s' ⟨[st], []⟩
      | .inside =>
        if !outRoom s then none
        else
          let ((m, bs), s') := payloadOf s o segs
          if !m.codes.isEmpty then fail s' m
          else
            let (tag, s') := takeEntry (sent s') entry
            some (loopBack s' { p0 with payload := bs, tag := BitVec.ofNat 16 tag })
      | .port port vc q twice =>
        if !injRoom s port o.r then none
        else
          let ((m, bs), s') := payloadOf (noteTwice s port twice) o segs
          if !m.codes.isEmpty then fail s' m
          else some (park (sent s') port ⟨o.r, vc, { q with payload := bs }, some entry⟩)
/-- The port whose full queue stalls the next packet of an operation (R288). -/
def stalledAt (s : State) (o : RmtOp) : Option Nat :=
  match o.todo with
  | [] => none
  | (a, _, _) :: _ =>
    match ownWay s (opPacket s o (a % 2 ^ 48) 0 []) with
    | .port port _ _ _ => if injRoom s port o.r then none else some port
    | _ => none

/-- The pieces that an operation still has to send, at most. -/
def RmtOp.pieces (o : RmtOp) : Nat := o.todo.foldl (fun n t => n + t.2.1 / 4096 + 2) 0
/-- Sends packets of operation `k` while they can go. -/
def pumpOp (k : Nat) : Nat → State → State
  | 0, s => s
  | f + 1, s =>
    match opGet s k with
    | none => s
    | some o =>
      match offer s o with
      | none => s
      | some s' => pumpOp k f s'

/-! Mirrors. -/

/-- Waiting commits get an outcome. -/
def decideCommits (s : State) (r : Byte) : State :=
  { s with mir := { s.mir with commits := s.mir.commits.map (fun c => if c.result.isNone then { c with result := some r } else c) } }
/-- Is some mirror entry LOST, or BROKEN (`st`)? -/
def anyMir (s : State) (st : BitVec 3) : Bool := (List.range 64).any (fun n => (mirGet s n).st == st)
/-- The operations that satisfy `p` are given up: they send no more, and what is outstanding of them changes no state. -/
def giveUp (s : State) (p : RmtOp → Bool) : State :=
  { s with rmt := { s.rmt with ops := s.rmt.ops.map (fun o => if p o then { o with owner := .nobody, todo := [] } else o) } }
/-- The operations that copy or rebuild entry `n` are given up. -/
def stopCopies (s : State) (n : Nat) : State :=
  giveUp s (fun o => o.owner = .resync n ∨ o.owner = .rebuild n ∨ o.owner = .rebRecord n)
/-- An entry leaves RESYNC or ACTIVE: its pending ranges that were not sent are forgotten, the others will change no state (Table 21-1). -/
def dropRanges (s : State) (n : Nat) : State :=
  let gone (r : MRange) : Bool := r.ent == n && !r.sent
  let ids := (s.mir.ranges.filter gone).map (fun r => r.num)
  let kept := (s.mir.ranges.filter (fun r => !gone r)).map (fun r => if r.ent = n then { r with stale := true } else r)
  { s with mir := { s.mir with ranges := kept,
                               commits := s.mir.commits.map (fun c => { c with cover := c.cover.filter (fun k => !ids.contains k) }) } }
/-- An entry in RESYNC or ACTIVE breaks (R407): waiting commits fail (R408). -/
def mirBroken (s : State) (n : Nat) (status : Byte) : State :=
  let m := mirGet s n
  if m.st = 1 ∨ m.st = 2 then
    let s := stopCopies (dropRanges (mirPut s n { m with st := 3 }) n) n
    decideCommits (event s .mir 0 n 0 0 0 status) (if anyMir s 5 then stMirror else stLink)
  else s
/-- What was written into the range of entry `n` during its REBUILD is no longer followed: the REBUILD has ended. -/
def overOut (s : State) (n : Nat) : State := { s with mir := { s.mir with stray := s.mir.stray.filter (fun x => x.1 != n) } }
/-- A rebuild aborts (R421): the entry is LOST and its local range unspecified (Table 21-1). -/
def mirLost (s : State) (n : Nat) (status : Byte) : State :=
  let m := mirGet s n
  let s := overOut (stopCopies (mirPut s n { m with st := 5 }) n) n
  let s := invalidate s (fun l => decide (m.lbase / 128 ≤ l) && decide (l * 128 < m.lbase + m.size))
  let s := memForget s m.lbase (m.lbase + m.size)
  decideCommits (event s .mir 3 n 0 0 0 status) stMirror

/-- Starts an operation of the mirror sender or of a rebuild with the entry's partner. -/
def mirOp (s : State) (n : Nat) (owner : Owner) (r ptype : Nat) (todo : List (Nat × Nat × Nat)) (got : List Byte) : State :=
  let m := mirGet s n
  startRemote s owner r ptype 0 (BitVec.ofNat 64 (m.partner.toNat * 2 ^ 48)) m.rank todo (fun o => { o with got := got })
/-- A copy of a RESYNC or a rebuild breaks or loses its entry as soon as a packet of it fails (Table 21-1). -/
def copyFails (s : State) (o : RmtOp) : State :=
  if o.codes.isEmpty then s
  else
    match o.owner with
    | .resync n => mirBroken s n o.status
    | .rebuild n => if (mirGet s n).st = 4 then mirLost s n o.status else s
    | _ => s

/-- Is a commit record read back accepted (R420)? -/
def recordOk (s : State) (n : Nat) (l : List Byte) : Bool :=
  leNat l == 0 || (leAt l 28 4 == (crc32 (l.take 28 ++ leBytes 4 0 ++ l.drop 32)).toNat && leAt l 10 2 == s.rt.slice.toNat
    && leAt l 12 1 == n)

/-- A step epoch is closed. -/
def closeStep (s : State) (c : Commit) : State :=
  { s with mir := { s.mir with committed := if s.mir.committed.ult c.step then c.step else s.mir.committed } }
/-- Changes a commit. -/
def commitMod (s : State) (e ord : Nat) (f : Commit → Commit) : State :=
  { s with mir := { s.mir with commits := s.mir.commits.map (fun c => if c.e = e ∧ c.ord = ord then f c else c) } }
/-- A commit goes on as far as it can (R408). -/
def commitStep (s : State) (c : Commit) : State :=
  let done (s : State) : State := commitMod (closeStep s c) c.e c.ord (fun c => { c with result := some stDone })
  if c.result.isSome then s
  else if anyMir s 5 then commitMod s c.e c.ord (fun c => { c with result := some stMirror })
  else if anyMir s 3 then commitMod s c.e c.ord (fun c => { c with result := some stLink })
  else if !(List.range 64).any (fun n => (mirGet s n).valid) then done s
  else if !c.cover.isEmpty || anyMir s 1 then s
  else if !c.sentRecs then
    let act := (List.range 64).filter (fun n => (mirGet s n).st == 2)
    let s := commitMod s c.e c.ord (fun c => { c with sentRecs := true, recs := act })
    let s := each act s (fun s n => mirOp s n (.commit c.e c.ord n) 72 6 [((mirGet s n).cbase, 64, 0)] (commitHead s n c.step))
    if act.isEmpty then done s else s
  else if c.recs.isEmpty then done s else s
/-- Every commit goes on. -/
def commitAll (s : State) : State := s.mir.commits.foldl commitStep s

/-! Completion of an operation. -/

/-- The bytes of this chip that a write which looped back leaves unspecified: those of its failed packets that its own region table
maps (R145, R363). -/
def forgetLost (rgn : State → Nat → Nat → Option Nat) (s : State) (o : RmtOp) : State :=
  if o.ptype = 1 ∧ o.mcast = false ∧ o.dst = s.rt.chip then
    each o.lost s (fun s p => match rgn s p.1 p.2 with
      | some a => invalidate (memForget s a (a + p.2)) (fun l => decide (a / 128 ≤ l) && decide (l ≤ (a + p.2 - 1) / 128))
      | none => s)
  else s
/-- What an operation on behalf of a descriptor leaves (R349, R355, R363). -/
def finishDesc (s : State) (o : RmtOp) (k : Nat) : State :=
  match stGet s k with
  | none => s
  | some d =>
    let st := o.status
    let loc := dNat d.desc 40 6
    let bytes : List Byte := if o.mcast then []
      else if o.ptype = 2 then leBytes 8 (if st = stDone then o.old.toNat else 2 ^ 64 - 1)
      else if o.ptype = 0 ∧ st ≠ stDone then List.replicate (dLen d.desc) 0xFF else []
    writeOut (forgetLost writeRegion s o) k ⟨o.codes, o.told⟩
      (if o.mcast then (if st = stPartial then o.old.setWidth 32 else 0) else if o.ptype = 2 then 0 else BitVec.ofNat 32 o.bytes)
      (writePieces loc bytes)

/-- What follows from an operation that is over. An instruction's is taken up when the instruction completes. -/
def finishOp (s : State) (o : RmtOp) : State :=
  let st := o.status
  match o.owner with
  | .instr _ _ => s
  | .nobody => forgetLost writeRegion (opDrop s o.id) o
  | .desc k => finishDesc (opDrop s o.id) o k
  | .journal k u pos =>
    let s := opDrop s o.id
    if st = stDone then s
    else
      let s := stMod s k (fun d => { d with codes := d.codes ++ o.codes, told := d.told ++ o.told })
      { s with shf := { s.shf with jout := s.shf.jout.filter (fun j => !(j.owner = k ∧ j.user = u ∧ j.pos = pos)) } }
  | .range n num =>
    let live := s.mir.ranges.any (fun r => r.num == num && !r.stale)
    let s := opDrop s o.id
    let s := { s with mir := { s.mir with ranges := s.mir.ranges.filter (fun r => r.num != num),
                                          commits := s.mir.commits.map (fun c => { c with cover := c.cover.filter (fun x => x != num) }) } }
    if st = stDone ∨ live = false then s else mirBroken s n st
  | .resync n =>
    let s := opDrop s o.id
    let m := mirGet s n
    if m.st = 1 ∧ st = stDone then event (mirPut s n { m with st := 2 }) .mir 1 n else s
  | .rebRecord n =>
    let s := opDrop s o.id
    let m := mirGet s n
    if m.st ≠ 4 then s
    else if st = stDone ∧ recordOk s n o.got = true then
      mirOp s n (.rebuild n) 73 0 [(m.pbase, m.size, m.lbase)] o.got
    else mirLost s n st
  | .rebuild n =>
    let s := opDrop s o.id
    let m := mirGet s n
    if m.st = 4 ∧ st = stDone then
      event (mirPut (overOut s n) n { m with st := 2, reb := BitVec.ofNat 64 (leAt o.got 0 8) }) .mir 2 n
    else s
  | .commit e ord n =>
    let s := opDrop s o.id
    if st = stDone then commitMod s e ord (fun c => { c with recs := c.recs.filter (fun x => x != n) })
    else commitMod (mirBroken s n st) e ord (fun c => { c with result := c.result.or (some stLink) })

/-- Every operation sends what it can, and those that are over finish. -/
def driveRound (s : State) : State :=
  let s := s.rmt.ops.foldl (fun s o => pumpOp o.id (o.pieces + 1) s) s
  let s := s.rmt.ops.foldl copyFails s
  let s := s.rmt.ops.foldl (fun s o => if o.isOver then finishOp s o else s) s
  commitAll s
/-- The remote operations go on as far as they can: an operation that another one's end starts is started in the next
round, and no chain is longer than four rounds. -/
def drive (s : State) : State := driveRound (driveRound (driveRound (driveRound s)))

/-! Failures from outside an answer. -/

/-- The packets parked at port `q`, or waiting to be, that satisfy `hit` are taken away; the operations of requests among them hear a
status. -/
def failParked (s : State) (q : Nat) (hit : Inj → Bool) (status : Byte) : State :=
  let x := portGet s q
  let s := portPut s q { x with inj := x.inj.filter (fun i => !hit i), stall := x.stall.filter (fun i => !hit i) }
  let s := each ((x.inj ++ x.stall).filter hit) s (fun s i => match i.o with
    | some o => opMod s o.op (fun y => { y with left := y.left - 1, codes := y.codes ++ [status] }.failAt o.off o.len 0)
    | none => s)
  each ((x.inj.filter hit).map (fun i => i.r)) s (fun s r => unstall s q r)
/-- Every request that satisfies `p`, outstanding or parked, fails with a status at once (R300, R365). -/
def failWhere (s : State) (p : Outst → Bool) (status : Byte) : State :=
  let s := each (s.rmt.out.filter p) s (fun s o => settleOut s o status 0)
  (List.range (portsOf s)).foldl (fun s q => failParked s q (fun i => (i.o.map p).getD false) status) s

/-- A request times out (R363): one REMOTE record per operation, that of its TARGET_TIMEOUT. -/
def timeoutTag (s : State) (tag : Nat) : State :=
  match outFind s tag with
  | none => s
  | some o =>
    let s := settleOut s o stTimeout 0
    let s := { s with rmt := { s.rmt with timeouts := satInc s.rmt.timeouts } }
    let s := setEvent s .rmt 0
    match opGet s o.op with
    | none => s
    | some x =>
      let f := x.fail.getD (0, 0)
      let s' := if x.timed then s
        else record s 4 stTimeout 9 0 f.1 ([BitVec.ofNat 8 o.ptype, 0] ++ leBytes 2 f.2)
      opMod s' o.op (fun y => { y with timed := true, told := y.told ++ [stTimeout] })

end Sys2Proof.Machine
end

