-- ==== Sys2Proof/Machine/Seq.lean ====
section
/-!
DEFINITION. Sequence slots, the frame pool, the decoding step and the journal (chapter 11, R235 to R237).
-/

namespace Sys2Proof.Machine

/-! Entries (Table 11-1). -/

/-- A slot. -/
def slotGet (s : State) (i : Nat) : Option Slot := tblGet (fun _ => none) s.seqs.slots i
/-- Sets a slot. -/
def slotPut (s : State) (i : Nat) (x : Option Slot) : State :=
  { s with seqs := { s.seqs with slots := tblSet (fun _ => none) s.seqs.slots i x } }
/-- MEM_SEQ_BOUND. -/
def boundSlots (s : State) : Nat := (s.seqs.slots.filter (fun e => e.2.isSome)).length
/-- Bytes replaced from byte `off` on. -/
def splice (l : List Byte) (off : Nat) (bs : List Byte) : List Byte := l.take off ++ bs ++ l.drop (off + bs.length)
/-- The address of entry `n`. -/
def entryAt (s : State) (n : Nat) : Nat := s.seqs.base.toNat + 128 * n
/-- STATE of an entry. -/
def eState (l : List Byte) : Nat := leAt l 0 1 % 16
/-- POS. -/
def ePos (l : List Byte) : Nat := leAt l 4 4
/-- MAX_POS. -/
def eMaxPos (l : List Byte) : Nat := leAt l 8 4
/-- GEN. -/
def eGen (l : List Byte) : Nat := leAt l 0xC 4
/-- MAX_GEN. -/
def eMaxGen (l : List Byte) : Nat := leAt l 0x10 4
/-- ALLOC. -/
def eAlloc (l : List Byte) : Nat := leAt l 0x14 4
/-- KV_PT. -/
def ePt (l : List Byte) : Nat := leAt l 0x18 6
/-- OUT_RING. -/
def eRing (l : List Byte) : Nat := leAt l 0x3D 1
/-- JRNL_BASE + JRNL_NEXT. -/
def eJrnlAt (l : List Byte) : Nat := (leAt l 0x58 6 + leAt l 0x60 4) % 2 ^ 48
/-- Are the fields that SEQ_PATCH copies valid? -/
def patchOk (l : List Byte) : Bool :=
  let w := leAt l 0x3A 2
  (w == 0 || decide (16 ≤ w ∧ w ≤ 256)) && leAt l 0x3E 2 == 0
/-- The checks of SEQ_BIND on an entry (Table 11-2). -/
def entryOk (l : List Byte) : Bool :=
  leAt l 0 4 / 1024 == 0 && (eState l == 1 || eState l == 2) && decide (leAt l 0 1 / 16 ≤ 4) && leAt l 0x1E 2 == 0 && leAt l 0x26 2 == 0
    && leAt l 0x28 8 / 2 ^ 52 == 0 && leAt l 0x54 4 == 0 && leAt l 0x5E 2 == 0 && leAt l 0x64 20 == 0 && patchOk l
    && decide (1 ≤ eMaxPos l ∧ eMaxPos l ≤ 2 ^ 31) && decide (ePos l < eMaxPos l) && decide (cdiv (ePos l) 16 ≤ eAlloc l)
    && decide (eAlloc l ≤ cdiv (eMaxPos l) 16) && ePt l % 64 == 0 && leAt l 0x20 6 % 64 == 0

/-! Accesses and the pool. -/

/-- What reads and writes of HBM ranges meet before any is made: refusals of the map, with their one record (R26), uncorrectable
words that are read (R272), lost stacks (R15). -/
def rangesMeet (s : State) (reads writes : List (Nat × Nat)) : Met × State :=
  let (m, s) := readsMeet s stProt reads
  let ws := writes.filter (fun p => p.2 != 0)
  let m := if ws.any (fun p => hbmOk s p.1 p.2 && touchesLost s p.1 p.2) then m.and (.data false) else m
  match ws.find? (fun p => !hbmOk s p.1 p.2) with
  | some p => if m.codes.contains stProt then (m, s) else (m.and .prot, refusedAccess s (refusedAt s p.1 p.2) stProt)
  | none => (m, s)
/-- Is a range readable without fault? -/
def readable (s : State) (a len : Nat) : Bool := len == 0 || (hbmOk s a len && !readFails s a len)
/-- Stores a list of ranges in order; what the writes meet. -/
def storeAll (s : State) (l : List (Nat × List Byte)) : Met × State :=
  l.foldl (fun t x =>
    let (m, s) := storeBytes t.2 x.1 x.2
    (t.1.and m, s)) (.none, s)
/-- The pool's size changes: POOL_LOW is set where it comes to lie below MEM_KVP_LOW (Table 11-7). -/
def poolLow (s : State) (top low : W32) : State :=
  let was := decide (s.seqs.low.toNat ≤ s.seqs.top.toNat)
  let s := { s with seqs := { s.seqs with top := top, low := low } }
  if was && top.ult low then setEvent s .seq 1 else s
/-- Sets MEM_KVP_TOP. -/
def topPut (s : State) (n : Nat) : State := poolLow s (BitVec.ofNat 32 n) s.seqs.low
/-- The address of entry `i` of the free stack. -/
def stackAt (s : State) (i : Nat) : Nat := s.seqs.kvStack.toNat + 4 * i
/-- The 32-bit words that bytes spell. -/
def words4 (l : List Byte) : List Nat := (List.range (l.length / 4)).map (fun i => leAt l (4 * i) 4)
/-- Pushes frames in order; what the writes meet. -/
def pushFrames (s : State) (l : List Nat) : Met × State :=
  let n := s.seqs.top.toNat
  let (c, s) := storeAll s [(stackAt s n, l.flatMap (leBytes 4))]
  (c, topPut s (n + l.length))

/-! SEQ_BIND, SEQ_UNBIND, SEQ_PATCH, KV_POOL (Table 11-2). -/

/-- SLOT. -/
def sqSlot (d : List Byte) : Nat := dByte d 36
/-- What the sequence descriptors have in common. -/
def sqForm (d : List Byte) (count : Bool) : Bool := commonForm d count && dLen d == 0

/-- The check of SEQ_BIND. -/
def bindCheck (s : State) (_ : QTab) (d : List Byte) : DCheck :=
  let n := dNat d 32 2
  let a := entryAt s n
  ⟨sqForm d false && dZero d 34 36 && decide (sqSlot d < 128) && dZero d 37 64 && (slotGet s (sqSlot d)).isNone
      && !(s.seqs.slots.any (fun e => (e.2.map (fun x => x.entry)) == some n)) && decide (n < s.seqs.entries.toNat)
      && (!readable s a 128 || entryOk (memRead s.mem a 128)), [], []⟩
/-- SEQ_BIND acts. -/
def bindAct (s : State) (k : Nat) (d : List Byte) : State :=
  let n := dNat d 32 2
  let a := entryAt s n
  let (m, s) := rangesMeet s [(a, 128)] []
  completeMet (if m.codes.isEmpty then slotPut s (sqSlot d) (some ⟨n, memRead s.mem a 128, none⟩) else s) k m 0

/-- Does a decoding step hold the slot that a descriptor names (R211), or the mirror sender its writes?
(DEDUCED, log entry 48) -/
def slotWaits (s : State) (d : List Byte) : Bool :=
  match slotGet s (sqSlot d) with
  | some x => x.held.isSome || storeHeld s (entryAt s x.entry) 128
  | none => false
/-- The check of SEQ_UNBIND. -/
def unbindCheck (s : State) (_ : QTab) (d : List Byte) : DCheck :=
  let x := slotGet s (sqSlot d)
  let above := match x with
    | some x => dByte d 37 == 1 && decide (s.seqs.frames.toNat < s.seqs.top.toNat + eAlloc x.bytes)
    | none => false
  ⟨sqForm d false && dZero d 32 36 && decide (sqSlot d < 128) && decide (dByte d 37 < 2) && dZero d 38 64 && x.isSome, [],
    if above then [stCount] else []⟩
/-- SEQ_UNBIND acts. -/
def unbindAct (s : State) (k : Nat) (d : List Byte) : State :=
  match slotGet s (sqSlot d) with
  | none => s
  | some x =>
    let n := if dByte d 37 = 1 then eAlloc x.bytes else 0
    let (m, s) := rangesMeet s [(ePt x.bytes, 4 * n)] [(stackAt s s.seqs.top.toNat, 4 * n), (entryAt s x.entry, 128)]
    if !m.codes.isEmpty then completeMet s k m 0
    else
      let frames := (words4 (memRead s.mem (ePt x.bytes) (4 * n))).reverse
      let (c, s) := if n = 0 then (.none, s) else pushFrames s frames
      let b := if dByte d 37 = 1 then splice x.bytes 0x14 (leBytes 4 0) else x.bytes
      let (c', s) := storeAll s [(entryAt s x.entry, b)]
      completeMet (slotPut s (sqSlot d) none) k (c.and c') 0

/-- The check of SEQ_PATCH. (DEDUCED, log entry 49) -/
def patchCheck (s : State) (_ : QTab) (d : List Byte) : DCheck :=
  let f := dByte d 37
  let img := dNat d 40 6
  let r := hbmRange img (if f % 2 = 1 then 128 else 0) false
  let resume : Bool := match slotGet s (sqSlot d) with
    | some x => decide (ePos x.bytes < eMaxPos x.bytes) && (decide (eGen x.bytes < eMaxGen x.bytes) || eMaxGen x.bytes == 0)
    | none => false
  ⟨sqForm d false && dZero d 32 36 && decide (sqSlot d < 128) && decide (f < 8) && dZero d 38 40 && dZero d 46 64
      && (f % 2 == 1 || img == 0) && (slotGet s (sqSlot d)).isSome && f / 2 != 3 && (f / 4 == 0 || resume)
      && (f % 2 == 0 || !readable s img 128 || patchOk (memRead s.mem img 128)), [r], []⟩
/-- SEQ_PATCH acts. -/
def patchAct (s : State) (k : Nat) (d : List Byte) : State :=
  match slotGet s (sqSlot d) with
  | none => s
  | some x =>
    let f := dByte d 37
    let img := dNat d 40 6
    let (m, s) := rangesMeet s (if f % 2 = 1 then [(img, 128)] else []) [(entryAt s x.entry, 128)]
    if !m.codes.isEmpty then completeMet s k m 0
    else
      let i := memRead s.mem img 128
      let b := if f % 2 = 1 then splice (splice x.bytes 0x30 ((i.drop 0x30).take 0x20)) 0x78 ((i.drop 0x78).take 8) else x.bytes
      let state (n : Nat) : List Byte := splice b 0 [BitVec.ofNat 8 n]
      let b := if f / 2 % 2 = 1 then state (2 + 4 * 16) else if f / 4 = 1 then state 1 else b
      let (c, s) := storeAll (slotPut s (sqSlot d) (some { x with bytes := b })) [(entryAt s x.entry, b)]
      completeMet s k c 0

/-- OP of KV_POOL. -/
def kvOp (d : List Byte) : Nat := dByte d 32
/-- LIST of KV_POOL. -/
def kvList (d : List Byte) : Nat := dNat d 40 6
/-- The check of KV_POOL. -/
def poolCheck (s : State) (t : QTab) (d : List Byte) : DCheck :=
  let n := dCount d
  let r := hbmRange (kvList d) (4 * n) false
  let push := kvOp d == 0
  let big := push && (decide (0xFFFFFFFF < 4 * n) || (rangeVerdict s t r).1 == stLength
    || decide (s.seqs.frames.toNat < s.seqs.top.toNat + n))
  ⟨sqForm d true && decide (kvOp d < 3) && dZero d 33 40 && dZero d 46 64 && (push || (n == 0 && kvList d == 0 && boundSlots s == 0))
      && (!push || decide (0xFFFFFFFF < 4 * n) || !readable s (kvList d) (4 * n)
        || (words4 (memRead s.mem (kvList d) (4 * n))).all (fun f => decide (f < s.seqs.frames.toNat))),
    if push && !big then [r] else [], if big then [stCount] else []⟩
/-- KV_POOL waits for the mirror sender. -/
def poolWaits (s : State) (d : List Byte) : Bool :=
  if kvOp d = 0 then storeHeld s (stackAt s s.seqs.top.toNat) (4 * dCount d)
  else kvOp d == 1 && storeHeld s (stackAt s 0) (4 * s.seqs.frames.toNat)
/-- KV_POOL acts. -/
def poolAct (s : State) (k : Nat) (d : List Byte) : State :=
  let n := s.seqs.frames.toNat
  if kvOp d = 2 then complete (topPut s 0) k stDone 0
  else if kvOp d = 1 then
    let (m, s) := rangesMeet s [] [(stackAt s 0, 4 * n)]
    if !m.codes.isEmpty then completeMet s k m 0
    else
      let (c, s) := if n = 0 then (.none, s) else storeAll s [(stackAt s 0, (List.range n).reverse.flatMap (leBytes 4))]
      completeMet (topPut s n) k c 0
  else
    let m := 4 * dCount d
    let (x, s) := rangesMeet s [(kvList d, m)] [(stackAt s s.seqs.top.toNat, m)]
    if !x.codes.isEmpty then completeMet s k x 0
    else
      let (c, s) := if m = 0 then (.none, s) else pushFrames s (words4 (memRead s.mem (kvList d) m))
      completeMet s k c 0

/-! The journal (R235, R237). -/

/-- A journal record that was sent fails (R235). -/
def journalLost (s : State) (user : W64) (pos : W32) (status : Byte) : State :=
  let hit (j : JrnlOut) : Bool := j.user == user && j.pos == pos
  let s' := each (s.shf.jout.filter hit) s (fun s j => stMod s j.owner (fun d => { d with codes := d.codes ++ [status] }))
  let s' := { s' with rmt := { s'.rmt with ops := s'.rmt.ops.map (fun (o : RmtOp) =>
    match o.owner with
    | Owner.journal _ u q => if u = user ∧ q = pos then { o with todo := [] } else o
    | _ => o) } }
  { s' with shf := { s'.shf with jout := s'.shf.jout.filter (fun j => !hit j) } }

/-- Sends one journal record; a chip in slice 0 sends none (R33). -/
def sendRecord (s : State) (id addr size : Nat) (user : W64) (pos : W32) : State :=
  startOp { s with shf := { s.shf with jout := s.shf.jout ++ [⟨id, user, pos⟩] } } (Owner.journal id user pos) 74 7 0 [(0, size, addr)]
    ⟨if s.rt.slice = 0 then [stProt] else [], []⟩
    (fun o => { o with opnd := user, swap := pos.setWidth 64 })
/-- Has a started descriptor journal records under way? -/
def journaling (s : State) (id : Nat) : Bool :=
  s.shf.jout.any (fun j => j.owner == id) || s.rmt.ops.any (fun o => match o.owner with
    | Owner.journal k _ _ => k == id
    | _ => false)
/-- The records of a started descriptor that failed are given up. -/
def journalDrop (s : State) (id : Nat) : State :=
  { s with shf := { s.shf with jout := s.shf.jout.filter (fun j => j.owner != id) },
           rmt := { s.rmt with ops := s.rmt.ops.filter (fun o => match o.owner with
             | Owner.journal k _ _ => k != id
             | _ => true) } }

/-- The records from address `a` on that fill `len` bytes: address and SIZE of each; none where the sizes do not fit. -/
def recordsFrom (s : State) : Nat → Nat → Nat → Option (List (Nat × Nat))
  | 0, _, _ => none
  | f + 1, a, len =>
    if len = 0 then some []
    else
      let n := memNat s a 4
      if n = 0 ∨ n % 64 ≠ 0 ∨ len < n then none else (recordsFrom s f (a + n) (len - n)).map (fun l => (a, n) :: l)
/-- ADDR of a JRNL_FLUSH. -/
def jfAddr (d : List Byte) : Nat := dNat d 32 6
/-- The records that a JRNL_FLUSH names. -/
def jfRecords (s : State) (d : List Byte) : Option (List (Nat × Nat)) := recordsFrom s (dLen d / 64 + 1) (jfAddr d) (dLen d)
/-- The check of JRNL_FLUSH; nothing leaves a chip in slice 0 (R33). -/
def flushCheck (s : State) (_ : QTab) (d : List Byte) : DCheck :=
  let r := hbmRange (jfAddr d) (dLen d) false
  ⟨commonForm d false && dZero d 38 64 && jfAddr d % 64 == 0 && dLen d % 64 == 0
      && (!readable s (jfAddr d) (dLen d) || (jfRecords s d).isSome),
    [r], if s.rt.slice = 0 ∧ dLen d ≠ 0 then [stProt] else []⟩
/-- JRNL_FLUSH acts. -/
def flushAct (s : State) (k : Nat) (d : List Byte) : State :=
  if dLen d = 0 then complete s k stDone 0
  else
    let (m, s) := rangesMeet s [(jfAddr d, dLen d)] []
    if !m.codes.isEmpty then completeMet s k m 0
    else
      each ((jfRecords s d).getD []) (stMod s k (fun x => { x with wait := .journal })) (fun s r =>
        sendRecord s k r.1 r.2 (BitVec.ofNat 64 (memNat s (r.1 + 16) 8)) (BitVec.ofNat 32 (memNat s (r.1 + 4) 4)))

/-! The decoding step (R213 to R218). -/

/-- SLOT_MASK. -/
def dsMask (d : List Byte) : Nat := dNat d 32 16
/-- MANIFEST. -/
def dsMan (d : List Byte) : Nat := dNat d 48 6
/-- ENTRY_PC. -/
def dsPc (d : List Byte) : Nat := dNat d 54 2
/-- ENGINE_MASK. -/
def dsEng (d : List Byte) : Nat := dNat d 56 8
/-- The check of DECODE_STEP. -/
def decodeCheck (s : State) (t : QTab) (d : List Byte) : DCheck :=
  let r := hbmRange (dsMan d) 14400 true
  ⟨sqForm d false && dsMan d % 64 == 0 && dsPc d / 16384 == 0 && (dsMask d == 0 || dsEng d != 0), [r],
    if maskOk s t (dsEng d) then [] else [stProt]⟩
/-- DECODE_STEP waits for its engines, for compute dies that are warm enough, for slots that another step holds, and for the
mirror sender where a page table grows (R211, R405, R448). -/
def decodeWaits (s : State) (d : List Byte) : Bool :=
  !(setBits 64 (dsEng d)).all (engReady s false) || tooCold s
    || (setBits 128 (dsMask d)).any (fun i => match slotGet s i with
      | some x => x.held.isSome
          || (eState x.bytes == 1 && eAlloc x.bytes == ePos x.bytes / 16 && storeHeld s (ePt x.bytes + 4 * (ePos x.bytes / 16)) 4)
      | none => false)

/-- Taking the slots of a step: the batch rows, those whose ALLOC was raised, how many slots were SKIPPED, what accesses met. -/
structure Taken where
  rows    : List Nat
  grown   : List Nat
  skipped : Nat
  met     : Met
  deriving DecidableEq, Repr

/-- Step `k` takes slot `i`, with a frame for its page where it has none (R213). -/
def takeSlot (k : Nat) (t : Taken × State) (i : Nat) : Taken × State :=
  let s := t.2
  let skip (s : State) : Taken × State := ({ t.1 with skipped := t.1.skipped + 1 }, s)
  match slotGet s i with
  | none => skip s
  | some x =>
    if eState x.bytes ≠ 1 ∨ x.held.isSome = true then skip s
    else
      let s := slotPut s i (some { x with held := some k })
      let p := ePos x.bytes / 16
      if p < eAlloc x.bytes then ({ t.1 with rows := t.1.rows ++ [i] }, s)
      else if s.seqs.top = 0 then skip (setEvent s .seq 2)
      else
        let n := s.seqs.top.toNat - 1
        let pt := ePt x.bytes + 4 * p
        let (m, s) := rangesMeet s [(stackAt s n, 4)] [(pt, 4)]
        if !m.codes.isEmpty then ({ t.1 with met := t.1.met.and m }, s)
        else
          let f := memRead s.mem (stackAt s n) 4
          let (c, s) := storeAll (topPut s n) [(pt, f)]
          let b := splice x.bytes 0x14 (leBytes 4 (eAlloc x.bytes + 1))
          ({ t.1 with rows := t.1.rows ++ [i], grown := t.1.grown ++ [i], met := t.1.met.and c }, slotPut s i (some ⟨x.entry, b, some k⟩))

/-- The bytes of a slot's entry. -/
def slotBytes (s : State) (i : Nat) : List Byte := ((slotGet s i).map (fun x => x.bytes)).getD []
/-- The sequence entry of a slot. -/
def slotEntry (s : State) (i : Nat) : Nat := ((slotGet s i).map (fun x => x.entry)).getD 0
/-- Is the row journaled (Table 11-1)? -/
def rowJrnl (s : State) (b : List Byte) : Bool := s.rt.repro || leAt b 1 1 / 2 % 2 == 1
/-- The manifest row of slot `i` (Table 11-4). -/
def manRow (s : State) (i : Nat) : List Byte :=
  let b := slotBytes s i
  leBytes 4 (i + (if (ePos b + 1) % 16 = 0 then 2 ^ 8 else 0) + leAt b 1 1 % 2 * 2 ^ 9 + b2n (rowJrnl s b) * 2 ^ 10)
    ++ leBytes 4 (slotEntry s i) ++ leBytes 4 (ePos b) ++ leBytes 4 (leAt b 0x50 4) ++ leBytes 8 (ePt b) ++ leBytes 8 (leAt b 0x20 6)
    ++ memRead s.mem (ePt b + 4 * (ePos b / 16)) 4 ++ leBytes 2 (leAt b 0x3A 2) ++ leBytes 2 (leAt b 0x3C 1) ++ leBytes 8 (eJrnlAt b)
    ++ leBytes 8 (leAt b 0x78 8) ++ leBytes 8 0
/-- The parameter row of slot `i` (R215). -/
def parRow (s : State) (i : Nat) : List Byte :=
  let b := slotBytes s i
  let seed := leAt b 0x28 8
  leBytes 4 (leAt b 0x30 4) ++ leBytes 4 (leAt b 0x34 4) ++ leBytes 4 (leAt b 0x38 2) ++ leBytes 4 0 ++ leBytes 4 (ePos b + 1)
    ++ leBytes 4 (seed / 2 ^ 20) ++ leBytes 4 (seed % 2 ^ 20) ++ leBytes 4 0
/-- The manifest of a step (Table 11-3). -/
def manifest (s : State) (rows : List Nat) (sq : Nat) : List Byte :=
  let pad (n : Nat) (l : List Byte) : List Byte := l ++ leBytes (n - l.length) 0
  pad 64 (leBytes 4 rows.length ++ leBytes 4 (b2n s.rt.repro) ++ leBytes 8 s.beat.now.toNat ++ leBytes 2 sq)
    ++ pad 8192 (rows.flatMap (manRow s)) ++ pad 4096 (rows.flatMap (parRow s)) ++ leBytes 2048 0

/-- The room that the token records of a batch need, by ring. -/
def tokenRoom (s : State) (rows : List Nat) : List (Nat × Nat) :=
  (List.range 256).filterMap (fun n =>
    let c := (rows.filter (fun i => eRing (slotBytes s i) == n)).length
    if c = 0 then none else some (n, c))
/-- Changes a step. -/
def stepMod (s : State) (id : Nat) (f : DecStep → DecStep) : State :=
  { s with seqs := { s.seqs with steps := s.seqs.steps.map (fun y => if y.id = id then f y else y) } }
/-- A step ends: entries that it has grown are written back (R212), its slots are free, unused token reservations are released, its
record is written if its descriptor had started. -/
def stepEnd (s : State) (x : DecStep) (release : Bool) (m : Met) (result : Nat) : State :=
  let queued := ((stGet s x.id).bind (fun d => d.q)).isSome
  let s := if release && x.begun && queued then each x.rows s (fun s i => unreserve s (eRing (slotBytes s i)) 1) else s
  let (m', s) := storeAll s (x.grown.map (fun i => (entryAt s (slotEntry s i), slotBytes s i)))
  let s := each (List.range 128) s (fun s i => match slotGet s i with
    | some y => if y.held = some x.id then slotPut s i (some { y with held := none }) else s
    | none => s)
  completeMet { s with seqs := { s.seqs with steps := s.seqs.steps.filter (fun y => y.id != x.id) } } x.id (m.and m') (BitVec.ofNat 32 result)
/-- Do the homes hold the entry of a slot of the list for the mirror sender (R405)? -/
def rowsHeld (s : State) (l : List Nat) : Bool := l.any (fun i => storeHeld s (entryAt s (slotEntry s i)) 128)
/-- A step fails: no entry is updated and no token record written (R218); it ends once what it has grown can be written back. -/
def stepFail (s : State) (x : DecStep) (m : Met) : State :=
  if rowsHeld s x.grown then stepMod s x.id (fun y => { y with codes := m.codes, told := m.told })
  else stepEnd s x true m (x.skipped * 2 ^ 16)

/-- A step whose descriptor has started begins: manifest and engines (R214). -/
def stepStart (s : State) (x : DecStep) (d : List Byte) : State :=
  let a := dsMan d
  let pts := x.rows.map (fun i => let b := slotBytes s i; (ePt b + 4 * (ePos b / 16), 4))
  let (m, s) := rangesMeet s pts [(a, 14400)]
  let (c, s) := if m.codes.isEmpty then storeAll s [(a, manifest s x.rows (dSeq d))] else (.none, s)
  if !(m.and c).codes.isEmpty then stepFail s x (m.and c)
  else
    let s := stMod (stepMod s x.id (fun y => { y with begun := true })) x.id (fun y => { y with engLeft := BitVec.ofNat 64 (dsEng d) })
    beginEngines s x.id (dsEng d) (dsPc d) [(1, BitVec.ofNat 64 a), (2, BitVec.ofNat 64 x.rows.length), (3, BitVec.ofNat 64 (dSeq d))]
/-- Must a step wait for its engines, or for the mirror sender? -/
def stepWaits (s : State) (d : List Byte) : Bool := !(setBits 64 (dsEng d)).all (engReady s false) || storeHeld s (dsMan d) 14400
/-- The record slots that a waiting step needs, by ring: one for each row, one for itself (R214, R392). -/
def stepRoom (s : State) (x : DecStep) (cq : Nat) : List (Nat × Nat) :=
  let t := if x.codes.isEmpty then tokenRoom s x.rows else []
  (List.range 256).filterMap (fun n =>
    let c := (t.filter (fun p => p.1 == n)).foldl (fun k p => k + p.2) 0 + (if n = cq then 1 else 0)
    if c = 0 then none else some (n, c))
/-- A step whose descriptor waits at the front of its queue goes on: it starts once the rings have room for its whole reservation; if
the descriptor is no longer there, the step lets its slots go (R214, R385, R392). -/
def stepFront (s : State) (x : DecStep) (q : Nat) (c : W32) : State :=
  let y := quGet s q
  if y.st ≠ .active ∨ y.ci ≠ c ∨ !s.hif.up then (if rowsHeld s x.grown then s else stepEnd s x false .none 0)
  else
    match frontReady s q with
    | none => s
    | some d =>
      if !(cqGet s (dCq d)).en then queueError s q 3
      else if !(stepRoom s x (dCq d)).all (fun p => ringFits s p.1 p.2) then s
      else
        let x' := { x with front := none }
        let take (w : DWait) : State := takeFrontAs (stepMod s x.id (fun y => { y with front := none })) q d w x.id
        if !x.codes.isEmpty then stepFail (take .decode) x' ⟨x.codes, x.told⟩
        else if x.rows.isEmpty then stepEnd (take .decode) x' true ⟨if x.skipped = 0 then [] else [stPartial], []⟩ (x.skipped * 2 ^ 16)
        else if stepWaits s d then s
        else
          let s := each (tokenRoom s x.rows) (take .decode) (fun s p => reserve s p.1 p.2)
          stepStart s x' d
/-- A step that has its slots goes on as far as it can. -/
def stepBegin (s : State) (x : DecStep) : State :=
  match x.front with
  | some (q, c) => stepFront s x q c
  | none =>
    match stGet s x.id with
    | none => s
    | some d =>
      if !x.codes.isEmpty then stepFail s x ⟨x.codes, x.told⟩
      else if x.begun then s
      else if x.rows.isEmpty then stepEnd s x true ⟨if x.skipped = 0 then [] else [stPartial], []⟩ (x.skipped * 2 ^ 16)
      else if stepWaits s d.desc then s else stepStart s x d.desc
/-- A DECODE_STEP takes its slots as step `k`. -/
def stepTake (s : State) (k : Nat) (d : List Byte) (front : Option (Nat × W32)) : State :=
  let (t, s) := (setBits 128 (dsMask d)).foldl (takeSlot k) (⟨[], [], 0, .none⟩, s)
  { s with seqs := { s.seqs with steps := s.seqs.steps ++ [⟨k, front, t.rows, t.grown, t.skipped, false, false, t.met.codes, t.met.told⟩] } }
/-- A DECODE_STEP at the front of queue `q` that has become eligible takes hold of its slots; it starts when the rings have room. -/
def decodeTake (s : State) (q : Nat) (d : List Byte) : State :=
  let c := (quGet s q).ci
  if s.seqs.steps.any (fun x => x.front == some (q, c)) then s
  else
    let (k, s) := takeId s
    stepTake s k d (some (q, c))
/-- A DECODE_STEP that has no queue takes its slots (R498). -/
def decodeAct (s : State) (k : Nat) (d : List Byte) : State := stepTake (stMod s k (fun y => { y with wait := .decode })) k d none

/-- The address of the result of row `i` (R216). -/
def resultAt (d : List Byte) (i : Nat) : Nat := dsMan d + 0x3040 + 16 * i
/-- A row after its step: its entry, and what its token record says (R216, R217). -/
def rowAfter (b : List Byte) (tok adv : Nat) : List Byte :=
  let pos := (ePos b + 1) % 2 ^ 32
  let gen := (eGen b + 1) % 2 ^ 32
  let stopTok := (List.range 4).any (fun i => leAt b (0x40 + 4 * i) 4 == tok && tok != 0xFFFFFFFF)
  let why := if stopTok then 1 else if eMaxGen b ≠ 0 ∧ eMaxGen b ≤ gen then 2 else if eMaxPos b ≤ pos then 3 else 0
  let b := splice (splice (splice b 4 (leBytes 4 pos)) 0xC (leBytes 4 gen)) 0x50 (leBytes 4 tok)
  let b := splice b 0x60 (leBytes 4 ((leAt b 0x60 4 + adv) % 2 ^ 32))
  if why = 0 then b else splice b 0 [BitVec.ofNat 8 (2 + why * 16)]
/-- The last 24 bytes of the token record of slot `i` (Table 11-5). -/
def tokenRest (s : State) (i : Nat) : List Byte :=
  let b := slotBytes s i
  let why := leAt b 0 1 / 16
  leBytes 4 (slotEntry s i) ++ leBytes 4 (ePos b) ++ leBytes 4 (leAt b 0x50 4) ++ leBytes 2 (b2n (eState b == 2) + why * 2)
    ++ [BitVec.ofNat 8 i, 0] ++ leBytes 8 (leAt b 0x78 8)
/-- The update of R216: the rows in one action, the entries, the token records, the step's record. (DEDUCED, log entry 51) -/
def stepUpdate (s : State) (x : DecStep) (d : Started) : State :=
  let (m, s) := rangesMeet s [(resultAt d.desc 0, 16 * x.rows.length)] []
  if !m.codes.isEmpty then stepFail s x m
  else
    let res := (List.range x.rows.length).map (fun j => memRead s.mem (resultAt d.desc j) 16)
    let fall (j : Nat) : Bool := leAt (res.getD j []) 4 1 % 2 == 1
    let rows := (List.range x.rows.length).zip x.rows
    let s := each rows s (fun s p => match slotGet s p.2 with
      | some y => slotPut s p.2 (some { y with bytes := rowAfter y.bytes (leAt (res.getD p.1 []) 0 4) (leAt (res.getD p.1 []) 8 4) })
      | none => s)
    let (m, s) := rangesMeet s [] (x.rows.map (fun i => (entryAt s (slotEntry s i), 128)))
    let (c, s) := if m.codes.isEmpty then storeAll s (x.rows.map (fun i => (entryAt s (slotEntry s i), slotBytes s i))) else (m, s)
    let irq := dByte d.desc 1 % 2 == 1
    let s := each rows s (fun s p => match d.q with
      | none => s
      | some q =>
        let n := eRing (slotBytes s p.2)
        writeRecord (unreserve s n 1) n (dSeq d.desc) (if fall p.1 then stSheaf else stDone) 1 q (tokenRest s p.2) irq)
    let stopped := (x.rows.filter (fun i => eState (slotBytes s i) == 2)).length
    let codes := (if x.skipped = 0 then [] else [stPartial]) ++ (if rows.any (fun p => fall p.1) then [stSheaf] else [])
    stepEnd s { x with grown := [] } false (c.and ⟨codes, []⟩) (x.rows.length + stopped * 2 ^ 8 + x.skipped * 2 ^ 16)

/-- The journal records that a step sends (R235): address, SIZE, USER, POS; none where a SIZE is wrong. -/
def stepRecords (s : State) (x : DecStep) (d : Started) : List (List Byte) :=
  ((List.range x.rows.length).zip x.rows).filterMap (fun p =>
    if memNat s (resultAt d.desc p.1 + 8) 4 = 0 then none else some (slotBytes s p.2))
/-- Every engine of step `k` has stopped: the journal under REPRO, or the update (R216, R218, R235). -/
def enginesDone (k : Nat) (s : State) : State :=
  match stGet s k, s.seqs.steps.find? (fun x => x.id == k) with
  | some d, some x =>
    if !x.begun || x.jrnl || !x.codes.isEmpty || d.engLeft != 0 || rowsHeld s x.rows then s
    else
      let (st, s) := combine s d
      if st ≠ stDone then stepFail s x ⟨[st], []⟩
      else if !s.rt.repro then stepUpdate s x d
      else
        let (m, s) := rangesMeet s [(resultAt d.desc 0, 16 * x.rows.length)] []
        if !m.codes.isEmpty then stepFail s x m
        else
          let bs := stepRecords s x d
          let (m, s) := rangesMeet s (bs.flatMap (fun b => [(eJrnlAt b, 4), (leAt b 0x58 6, 4)])) []
          let size (b : List Byte) : Nat := memNat s (eJrnlAt b) 4
          if !m.codes.isEmpty then stepFail s x m
          else if bs.any (fun b => size b == 0 || size b % 64 != 0 || decide (memNat s (leAt b 0x58 6) 4 < size b)) then
            stepFail s x ⟨[stMalformed], []⟩
          else if bs.isEmpty then stepUpdate s x d
          else
            let s := stMod (stepMod s k (fun y => { y with jrnl := true })) k (fun y => { y with wait := .journal })
            each bs s (fun s b => sendRecord s k (eJrnlAt b) (memNat s (eJrnlAt b) 4) (BitVec.ofNat 64 (leAt b 0x78 8))
              (BitVec.ofNat 32 (ePos b)))
  | _, _ => s

/-- A descriptor whose journal records are all acknowledged, or of which one failed, goes on. -/
def journalSettle (s : State) (d : Started) : State :=
  if d.wait ≠ .journal then s
  else
    let bad := d.codes.filter (fun c => c != stLease && c != stReclaimed)
    let fail (s : State) : State := if bad.isEmpty then s else event s .shf 17
    match s.seqs.steps.find? (fun x => x.id == d.id) with
    | some x =>
      if !x.codes.isEmpty then s
      else if !d.codes.isEmpty then stepFail (fail (journalDrop s d.id)) x ⟨d.codes, d.told⟩
      else if journaling s d.id || rowsHeld s x.rows then s else stepUpdate s x d
    | none =>
      if !d.codes.isEmpty then completeMet (fail (journalDrop s d.id)) d.id .none 0
      else if journaling s d.id then s else complete s d.id stDone 0
/-- Held writes, journal writes and decoding steps go on as far as they can. -/
def settleSteps (s : State) : State :=
  let s := writesAll s
  let s := each s.hif.started s journalSettle
  each s.seqs.steps s stepBegin

/-- The command of the fabric: its effect, the remote operations, the descriptors that started engines, decoding steps. -/
def onFabric (f : State → State) (s : State) : Host.Outcome State Fault Refusal := run s (fun s => settleSteps (settle (drive (f s))))

/-! The heads of completion rings (R392). -/

/-- Does a descriptor wait for room in ring `n`? -/
def roomWanted (s : State) (n : Nat) : Bool :=
  let front (q : Nat) : List Byte := ((quGet s q).got.head?).getD []
  (s.hif.q.any (fun e => match e.2.got with
    | d :: _ => e.2.st == .active && dCq d == n && !ringFits s n 1
    | [] => false)) || s.seqs.steps.any (fun x => match x.front with
      | some (q, _) => (stepRoom s x (dCq (front q))).any (fun p => p.1 == n && !ringFits s p.1 p.2)
      | none => false)
/-- The head of a completion ring is read. -/
def cqHead (n : Nat) (hv : HostView) (s : State) : State :=
  let c := cqGet s n
  if !c.en || !s.hif.up || !roomWanted s n then s
  else if hv.fail ≠ .none then hostDmaErr s 0 0
  else cqPut s n { c with head := BitVec.ofNat 32 (hostNat hv (s.hif.headBase.toNat + 4 * n) 4) }

/-! Registers (R219). -/

/-- Do the areas that the registers describe lie in populated HBM? -/
def areasOk (s : State) (x : Seqs) : Bool :=
  let top := regionsOf s * 2 ^ 30
  let ok (a n : Nat) : Bool := decide (a < top) && decide (a + n ≤ top)
  ok x.base.toNat (128 * x.entries.toNat) && ok x.kvBase.toNat (x.frames.toNat * x.frame.toNat * 4096) && ok x.kvStack.toNat (4 * x.frames.toNat)
/-- A register of Table 11-6 by its offset, with the value written in it; none where the value is out of range. -/
def seqWith (x : Seqs) (off : Nat) (v : W64) : Option Seqs :=
  let a := fld v 0 48
  if off = 0x440000 then (if a % 4096 = 0 then some { x with base := BitVec.ofNat 64 a } else none)
  else if off = 0x440008 then (if fld v 0 17 ≤ 65536 then some { x with entries := BitVec.ofNat 32 (fld v 0 17) } else none)
  else if off = 0x440010 then (if a % 4096 = 0 then some { x with kvBase := BitVec.ofNat 64 a } else none)
  else if off = 0x440018 then (if 1 ≤ fld v 0 11 ∧ fld v 0 11 ≤ 1024 then some { x with frame := BitVec.ofNat 32 (fld v 0 11) } else none)
  else if off = 0x44001C then some { x with frames := v.setWidth 32 }
  else if off = 0x440020 then (if a % 4096 = 0 then some { x with kvStack := BitVec.ofNat 64 a } else none)
  else some x
/-- MEM_KVP_LOW. -/
def kvpLow (v : W32) (s : State) : State := poolLow s s.seqs.top v
/-- A write of one register of Table 11-6: all but MEM_KVP_LOW are refused with ERR while slots are bound or a step is in progress. -/
def seqReg (off : Nat) (v : W64) (s : State) : State :=
  if off = 0x44002C then kvpLow (v.setWidth 32) s
  else if !([0x440000, 0x440008, 0x440010, 0x440018, 0x44001C, 0x440020].contains off) then s
  else
    let err := evPut s .seq (putBit (evGet s .seq) 0 true)
    if boundSlots s ≠ 0 ∨ s.seqs.steps ≠ [] then err
    else
      match seqWith s.seqs off v with
      | some x => if areasOk s x then { s with seqs := x } else err
      | none => err
/-- A write of 4 or 8 bytes to the registers of Table 11-6 (R508, R509). (DEDUCED, log entry 53) -/
def seqRegWrite (off : Nat) (wide : Bool) (v : W64) (s : State) : State :=
  if off % (if wide then 8 else 4) ≠ 0 then hifCmdErr s
  else if [0x440000, 0x440010, 0x440020].contains (off / 8 * 8) then (if wide then seqReg off v s else hifCmdErr s)
  else if wide then seqReg (off + 4) (BitVec.ofNat 64 (fld v 32 32)) (seqReg off (BitVec.ofNat 64 (fld v 0 32)) s)
  else seqReg off (BitVec.ofNat 64 (fld v 0 32)) s

/-! The rows of the table. -/

/-- SEQ_BIND (R209). -/
def execSeqBind (q : Nat) (s : State) : Host.Outcome State Fault Refusal := onFabric (fun s => descRow 0x30 bindCheck noWait bindAct s q) s
/-- SEQ_UNBIND (R209). -/
def execSeqUnbind (q : Nat) (s : State) : Host.Outcome State Fault Refusal :=
  onFabric (fun s => descRow 0x31 unbindCheck slotWaits unbindAct s q) s
/-- SEQ_PATCH (R209). -/
def execSeqPatch (q : Nat) (s : State) : Host.Outcome State Fault Refusal :=
  onFabric (fun s => descRow 0x32 patchCheck slotWaits patchAct s q) s
/-- DECODE_STEP (R213). -/
def execDecodeStep (q : Nat) (s : State) : Host.Outcome State Fault Refusal :=
  onFabric (fun s => descRow 0x33 decodeCheck decodeWaits decodeAct s q (early := some decodeTake)) s
/-- DECODE_ENGINES_DONE (R216). -/
def execDecodeEnginesDone (k : Nat) (s : State) : Host.Outcome State Fault Refusal := onFabric (enginesDone k) s
/-- JRNL_ACK_TIMEOUT (R235). -/
def execJrnlAckTimeout (k : Nat) (s : State) : Host.Outcome State Fault Refusal :=
  onFabric (fun s => if s.shf.jout.any (fun j => j.owner == k) then stMod s k (fun d => { d with codes := d.codes ++ [stTimeout] }) else s) s
/-- KV_POOL (R210). -/
def execKvPool (q : Nat) (s : State) : Host.Outcome State Fault Refusal := onFabric (fun s => descRow 0x34 poolCheck poolWaits poolAct s q) s
/-- JRNL_FLUSH (R237). -/
def execJrnlFlush (q : Nat) (s : State) : Host.Outcome State Fault Refusal := onFabric (fun s => descRow 0x35 flushCheck noWait flushAct s q) s
/-- MEM_SEQ_REG_WRITE (R219). -/
def execMemSeqRegWrite (off : Nat) (wide : Bool) (v : W64) (s : State) : Host.Outcome State Fault Refusal :=
  run s (fwOnly (seqRegWrite off wide v))
/-- KVP_LOW_WRITE (R219). -/
def execKvpLowWrite (v : W32) (s : State) : Host.Outcome State Fault Refusal := run s (fwOnly (kvpLow v))
/-- CQ_HEAD_READ (R392). -/
def execCqHeadRead (n : Nat) (hv : HostView) (s : State) : Host.Outcome State Fault Refusal := onFabric (cqHead n hv) s
/-- STOP (R378). -/
def execStop (q : Nat) (s : State) : Host.Outcome State Fault Refusal := onFabric (stopQueue q) s
/-- GROUP_READ_RETURN (R380). -/
def execGroupReadReturn (g : Nat) (hv : HostView) (s : State) : Host.Outcome State Fault Refusal := onFabric (groupReturn g hv) s
/-- DESC_FETCH_RETURN (R381). -/
def execDescFetchReturn (q : Nat) (hv : HostView) (s : State) : Host.Outcome State Fault Refusal := onFabric (fetchReturn q hv) s
/-- HOST_LINK_DOWN (R398). -/
def execHostLinkDown (s : State) : Host.Outcome State Fault Refusal := onFabric linkDown s

end Sys2Proof.Machine
end

