-- ==== Sys2Proof/Machine/Issue.lean ====
section
/-!
DEFINITION. Issue and completion of queued instructions (R69 to R76, R137 to R139, R144, R145, R151, R178 to R181, R184): the
scoreboard, the checks at issue, what each instruction has done when it completes.
-/

namespace Sys2Proof.Machine

/-! The sheaf of a die, as far as instructions see it. -/

/-- Sheaf `d`. -/
def sheafGet (s : State) (d : Nat) : Sheaf := tblGet (fun _ => Sheaf.init) s.shf.sheaves d
/-- Sets sheaf `d`. -/
def sheafPut (s : State) (d : Nat) (x : Sheaf) : State :=
  { s with shf := { s.shf with sheaves := tblSet (fun _ => Sheaf.init) s.shf.sheaves d x } }
/-- Does a sheaf grant, or hold a grant until its window closes (R225)? -/
def sheafServes (x : Sheaf) : Bool := x.st == .ready || x.st == .window

/-! The scoreboard. -/

/-- Are the sources of `i` ready among the uncompleted instructions (R70)? -/
def srcReady (g : Engine) (i : QInstr) : Bool :=
  !g.uncompleted.any (fun j => decide (j.ord < i.ord) && j.dsts.any (fun f => i.srcs.any f.meets))
/-- Are the destinations of `i` free (R70)? -/
def dstFree (g : Engine) (i : QInstr) : Bool :=
  !g.uncompleted.any (fun j => decide (j.ord < i.ord) && (j.srcs ++ j.dsts).any (fun f => i.dsts.any f.meets))
/-- Does the token condition of `i` hold (R76)? -/
def tokOk (g : Engine) (i : QInstr) : Bool :=
  match i.tokc with
  | none => true
  | some (t, v) => decide (v.toNat ≤ (g.tok t).toNat)
/-- The tile SRAM read claim of an instruction of a queue (R184). -/
def claimFor (q : EngQueue) (i : QInstr) : Nat :=
  match q with
  | .mm => mmClaim i.hs i.word
  | .vx => vxClaim i.hs i.word
  | _ => 0
/-- Does an instruction of a queue take issue cycles of its unit, the last of them still to come? -/
def unitIssuing (g : Engine) (q : EngQueue) : Bool := g.exec.any (fun x => x.qu == q && x.issuing)
/-- The claim that the other unit holds: that of the instruction in its issue cycles (R184). -/
def heldClaim (g : Engine) (q : EngQueue) : Nat := ((g.exec.find? (fun x => x.qu == q && x.issuing)).map (fun x => x.claim)).getD 0
/-- Does the claim fit beside that of the other unit? -/
def claimFits (g : Engine) (q : EngQueue) (i : QInstr) : Bool :=
  match q with
  | .mm => decide (claimFor q i + heldClaim g .vx ≤ 2048)
  | .vx => decide (claimFor q i + heldClaim g .mm ≤ 2048)
  | _ => true
/-- Has the unit of engine `e` room for another issued instruction (R71), and is matrix issue not gated (R433)?
(DEDUCED, log entry 36) -/
def unitRoom (s : State) (e : Nat) (g : Engine) (q : EngQueue) : Bool :=
  match q with
  | .mm => !unitIssuing g .mm && !(tblGet (fun _ => PwrDie.init) s.pwr.dies (e / 16)).gated
  | .vx => !unitIssuing g .vx
  | .mv | .sf => decide ((g.exec.filter (fun x => x.qu == q)).length < 8)
/-- Is the head of a queue able to issue but for the claims? -/
def headAble (s : State) (e : Nat) (g : Engine) (q : EngQueue) : Option QInstr :=
  match g.queue q with
  | i :: _ => if srcReady g i && dstFree g i && tokOk g i && unitRoom s e g q then some i else none
  | [] => none
/-- Does a matrix head that is able to issue keep a vector head from it, their claims not fitting together (R184)? -/
def mmFirst (s : State) (e : Nat) (g : Engine) (i : QInstr) : Bool :=
  match headAble s e g .mm with
  | some m => claimFits g .mm m && decide (2048 < claimFor .mm m + claimFor .vx i)
  | none => false

/-! Fabric instructions. -/

/-- The byte runs of a slab in ascending order of their place, for a stride in bytes. -/
def Slab.runsAsc (x : Slab) (stride : Nat) : List (Nat × Nat) :=
  if x.tiled then
    (List.range (cdiv x.rows 64)).flatMap (fun b => (List.range (cdiv x.cols 64)).flatMap (fun t =>
      (List.range (min 64 (x.rows - 64 * b))).map (fun r =>
        (b * stride + t * (512 * x.bits) + r * (8 * x.bits), min 64 (x.cols - 64 * t) * x.bits / 8))))
  else x.runs stride
/-- The runs of fx.put and fx.get: target offset, bytes, local place (R136). -/
def fxRuns (e : Nat) (q : QInstr) : List (Nat × Nat × Nat) :=
  let x := q.slabA
  let a := fld (q.reg (wB q.word)) 0 48
  (x.runsAsc (q.reg (wC q.word)).toNat).zipWith (fun m l => (a + m.1, m.2, storeAddr e x.acc (x.base * 64 + l.1)))
    (x.runsAsc (x.stride * 64))
/-- The width of an atomic in bytes (Table 7-8). -/
def atomWidth (aop : Nat) : Nat := if aop = 1 ∨ aop = 3 then 4 else 8
/-- The address that the checks of a fabric instruction at issue fail on (R144). A stride below the row or band bytes, which R136 carries
over from R68, fails them too. (DEDUCED, log entry 154) -/
def fxFault (q : QInstr) : Option W64 :=
  let op := wOp q.word
  let a := q.reg (wB q.word)
  let st := (q.reg (wC q.word)).toNat
  if op = 0xA0 ∨ op = 0xA1 then
    (if a.toNat % 64 ≠ 0 ∨ st % 64 ≠ 0 ∨ st < q.slabA.minStride then some a else none)
  else if op = 0xA2 then (if a.toNat % atomWidth (xAop q.word) ≠ 0 then some a else none)
  else none

/-- The address that any check at issue fails on, if one does. -/
def checkIssue (s : State) (e : Nat) (q : QInstr) : Option W64 :=
  if wOp q.word = 0xF4 then (ggBeyond s e q).map (BitVec.ofNat 64)
  else
    match fxFault q with
    | some a => some a
    | none => (issueFault s e q).map (BitVec.ofNat 64)

/-- What an instruction starts when it issues. -/
def begin (s : State) (e : Nat) (i : QInstr) : State :=
  let op := wOp i.word
  let a := i.reg (wB i.word)
  if op = 0xA0 then startRemote s (.instr e i.ord) e 1 0 a (xRank i.word) (fxRuns e i) (fun o => o)
  else if op = 0xA1 then startRemote s (.instr e i.ord) e 0 0 a (xRank i.word) (fxRuns e i) (fun o => o)
  else if op = 0xA2 then
    startRemote s (.instr e i.ord) e 2 (xAop i.word) a (xRank i.word) [(fld a 0 48, atomWidth (xAop i.word), 0)]
      (fun o => { o with aop := xAop i.word, opnd := i.reg (wC i.word), swap := i.reg (wD i.word) })
  else if op = 0x66 then
    { s with mir := { s.mir with commits := s.mir.commits ++ [⟨e, i.ord, a, s.mir.ranges.map (fun r => r.num), [], false, none⟩] } }
  else s

/-- The units whose last issue cycle has come have finished issuing (R71, R184). -/
def issuesOver (freed : List EngQueue) (g : Engine) : Engine :=
  { g with exec := g.exec.map (fun x => if freed.contains x.qu then { x with issuing := false } else x) }
/-- The head of queue number `q` is held back by none of the three conditions of R73, of which exactly one is counted all the same: which
one is a free choice. (DESIGN CHOICE, log entry 152) -/
def waitOther (s : State) (e q : Nat) : State :=
  let (v, s) := drawFree s
  engMod s e (fun g => g.count (8 + 4 * (v.toNat % 3) + q))
/-- The instruction at the head of a queue issues, or the counter of what holds it back advances (R70, R73, R184). `over` are the queues
whose unit has had the last issue cycle of what it executes. (DESIGN CHOICE, log entry 152) -/
def issueHead (qu : EngQueue) (freed : List EngQueue) (s : State) (e : Nat) : State :=
  let g := issuesOver freed (engGet s e)
  let q := quNum qu
  if !present s e || !(g.st == .running || g.st == .halted) then s
  else
    match g.queue qu with
    | [] => engPut s e g
    | i :: rest =>
      if !srcReady g i then engPut s e (g.count (8 + q))
      else if !dstFree g i then engPut s e (g.count (12 + q))
      else if !tokOk g i then engPut s e (g.count (16 + q))
      else if !unitRoom s e g qu then waitOther (engPut s e g) e q
      else if !claimFits g qu i || (qu == .vx && mmFirst s e g i) then engPut s e (g.count (8 + q))
      else
        match checkIssue s e i with
        | some a => raiseExc (i.used (engPut s e g)) e ⟨3, i.idx, BitVec.ofNat 8 (wOp i.word), q, a, i.ord, s.beat.now⟩
        | none =>
          let x : XInstr :=
            { qu := qu, i := i, stage := .running, issuing := qu == .mm || qu == .vx, claim := claimFor qu i,
              fn := if readsSlot i (vSel i.word) then g.slot (vSel i.word) else FnSlot.zero,
              granted := 0, rows := 0, odd := 0, epoch := 0, lock := sheafServes (sheafGet s (e / 16)) }
          let g' := (g.setQueue qu rest).counts (4 + q)
          begin (i.used (engPut s e { g' with exec := g'.exec ++ [x] })) e i

/-! Completion. -/

/-- An issued instruction by its place in dispatch order. -/
def issuedFind (g : Engine) (k : Nat) : Option XInstr := g.exec.find? (fun x => x.i.ord == k)
/-- Removes an issued instruction. -/
def issuedDrop (g : Engine) (k : Nat) : Engine := { g with exec := g.exec.filter (fun x => x.i.ord != k) }
/-- Changes an issued instruction. -/
def issuedMod (g : Engine) (k : Nat) (f : XInstr → XInstr) : Engine :=
  { g with exec := g.exec.map (fun x => if x.i.ord = k then f x else x) }

/-- An issued instruction ends without an exception: its footprints are freed, its completion counted, its TOK incremented
(R71, R73, R75). -/
def retire (s : State) (e : Nat) (x : XInstr) : State :=
  let s := engMod s e (fun g => (issuedDrop g x.i.ord).count 1)
  let s := if x.i.word.getLsbD 24 then tokInc s e (fld x.i.word 25 6) (some (x.i, quNum x.qu)) else s
  engSettle s e
/-- An issued instruction raises an exception in its transfer: it ends without its TOK increment, its write never visible (R75, R139,
R154). (DEDUCED, log entry 137) -/
def failExec (s : State) (e : Nat) (x : XInstr) (code addr : Nat) : State :=
  let s := engMod s e (fun g => (issuedDrop g x.i.ord).unwritten x.i.ord)
  engSettle (raiseExc s e ⟨code, x.i.idx, BitVec.ofNat 8 (wOp x.i.word), quNum x.qu, BitVec.ofNat 64 addr, x.i.ord, s.beat.now⟩) e

/-- The outcome of a transfer between a tiller and HBM: the instruction has moved its data, or ends in an exception. -/
def afterXfer (e : Nat) (x : XInstr) : Xfer → State
  | .done s => engMod s e (fun g => issuedMod g x.i.ord (fun y => { y with stage := .moved }))
  | .fail s code addr => failExec s e x code addr

/-- The status unit of a fabric instruction or of sy.commit (Table 7-9). -/
def statusUnit (status : Byte) (bytes : Nat) (old : W64) : List Byte :=
  [status, 0, 0, 0] ++ leBytes 4 bytes ++ leBytes 8 old.toNat ++ List.replicate 48 0
/-- Writes a status unit. -/
def putStatus (s : State) (e : Nat) (w : IWord) (l : List Byte) : State := memPut s (storeAddr e false (xStat w * 64)) l
/-- The grain status unit (Table 8-8). -/
def grainUnit (status : Byte) (rows odd : Nat) (epoch : W32) (ifc : Nat) : List Byte :=
  [status, 0, 0, 0] ++ leBytes 4 rows ++ leBytes 4 odd ++ leBytes 4 epoch.toNat ++ leBytes 4 ifc ++ List.replicate 44 0

/-- The end of a fabric instruction whose operation is over (R145). -/
def endFx (s : State) (e : Nat) (x : XInstr) (o : RmtOp) : State :=
  let w := x.i.word
  let st := o.status
  let d := x.i.slabA
  let s := forgetLost writeRegion (unreported (opDrop s o.id) 16 o.codes o.told) o
  let s := if wOp w = 0xA1 then
      freeHit (if st = stDone then s
        else (d.runsAsc (d.stride * 64)).foldl (fun s r => memPut s (storeAddr e d.acc (d.base * 64 + r.1)) (List.replicate r.2 0xFF)) s)
        e x.i d (fun _ _ => false)
    else s
  let s := if wOp w = 0xA2 then putStatus s e w (statusUnit st 0 (if st = stDone then o.old else BitVec.allOnes 64))
    else putStatus s e w (statusUnit st o.bytes 0)
  retire s e x
/-- The end of sy.commit (R151, R408). Its status unit holds 0 in BYTES, for which Table 7-9 states no value.
(DESIGN CHOICE, log entry 153) -/
def endCommit (s : State) (e : Nat) (x : XInstr) (st : Byte) : State :=
  let s := { s with mir := { s.mir with commits := s.mir.commits.filter (fun c => !(c.e = e ∧ c.ord = x.i.ord)) } }
  retire (putStatus s e x.i.word (statusUnit st 0 0)) e x
/-- The end of sh.grain: its rows formed, or every row 0 where the sheaf was lost before (R180, R181, R227). -/
def endGrain (s : State) (e : Nat) (x : XInstr) : State :=
  let w := x.i.word
  let d := x.i.slabA
  let whole := decide (d.rows ≤ x.rows) && x.lock
  let s := freeHit (if whole then s else putCodes s e d (fun _ _ => 0)) e x.i d (fun r _ => whole && rowMet x.i (wB w) r)
  let u := if whole then grainUnit stDone d.rows x.odd x.epoch (gIfc w) else grainUnit stSheaf d.rows 0 0 (gIfc w)
  retire (putStatus s e w u) e x

/-- Must a vector instruction wait for an earlier tb.load whose function slot it reads or loads (R175)? -/
def slotWait (g : Engine) (x : XInstr) : Bool :=
  g.exec.any (fun y => wOp y.i.word == 0xF1 && decide (y.i.ord < x.i.ord)
    && (readsSlot x.i (vSel y.i.word) || (wOp x.i.word == 0xF1 && vSel x.i.word == vSel y.i.word)))
/-- The instruction with place `k` in dispatch order completes, if it can. -/
def completeExec (k : Nat) (s : State) (e : Nat) : State :=
  let g := engGet s e
  match issuedFind g k with
  | none => s
  | some x =>
    let op := wOp x.i.word
    match x.qu with
    | .mm => retire (runMm s e x.i) e x
    | .vx => if slotWait g x then s else retire (runVx x.fn s e x.i) e x
    | .mv =>
      if op = 0x83 ∨ op = 0x84 then retire (copySlab s e x.i) e x
      else if op = 0x87 then retire (runVx x.fn s e x.i) e x
      else if readsHbm x.i || writesHbm x.i then (if x.stage = .moved then retire s e x else s)
      else
        match windowTransfer s e x.i with
        | .done s => retire s e x
        | .fail s code addr => failExec s e x code addr
    | .sf =>
      if op = 0x66 then
        match s.mir.commits.find? (fun c => c.e == e && c.ord == k) with
        | some c => (match c.result with
          | some st => endCommit s e x st
          | none => s)
        | none => s
      else if op = 0xF8 then (if x.i.slabA.rows ≤ x.rows ∨ x.lock = false then endGrain s e x else s)
      else
        match s.rmt.ops.find? (fun o => o.owner == .instr e k) with
        | some o => if o.isOver then endFx s e x o else s
        | none => s

/-! Uncorrectable errors of the stores of a tile (R139, R163, R166, R461). -/

/-- Does the instruction read address `a` of a tile's stores: its own, or for a load those of another engine's window? -/
def readsStore (s : State) (e : Nat) (i : QInstr) (a : Nat) : Bool :=
  decide (2 ^ 40 ≤ a) && (i.srcs.any (fun f => decide (storeAddr e f.acc f.lo ≤ a) && decide (a < storeAddr e f.acc f.hi))
    || (wOp i.word == 0x80 || wOp i.word == 0x82) && (transferRuns s e i).any (fun p => decide (p.1 ≤ a) && decide (a < p.1 + p.2.2))
    || (wOp i.word / 32 == 6 || (wOp i.word == 0xF4 && vFlag i.word))
      && i.dsts.any (fun f => decide (storeAddr e f.acc f.lo ≤ a) && decide (a < storeAddr e f.acc f.hi)))
/-- What an instruction leaves whose read found the uncorrectable word at address `a`: what was written before the read failed keeps its
new value, the rest of the destination is unspecified, and no further packet leaves (R139, R163). -/
def spoil (s : State) (e : Nat) (x : XInstr) (a : Nat) : State :=
  let i := x.i.badAt e a
  let op := wOp i.word
  let all (s : State) : State := freeSome s e i.slabA (fun _ _ => true)
  match x.qu with
  | .mm => spoilMm s e i
  | .vx => spoilVx x.fn s e i
  | .mv =>
    if op = 0x83 ∨ op = 0x84 then all (copySlab s e i)
    else if op = 0x87 then spoilVx x.fn s e i
    else if op = 0x81 ∨ op = 0x86 then
      match imageOf s e i with
      | .window y acc off =>
        (transferRuns s e i).foldl (fun s p =>
          let (bs, s) := i.bytesOf s e i.slabA.acc p.2.1 p.2.2
          let (bs, s) := someBytes s bs
          windowWrite s y acc (off + (p.1 - (i.reg (wB i.word)).toNat)) bs) s
      | _ => ((transferRuns s e i).filter (fun r => hbmOk s r.1 r.2.2)).foldl (writeRun e i true) (i.used s)
    else all (fillSlab (memFill s.mem (a / 8 * 8) (a / 8 * 8 + 8) (s.free + 1)) { s with free := s.free + 1 } e i)
  | .sf =>
    if op = 0xF8 then freeSome s e i.slabA (fun _ _ => true)
    else giveUp s (fun o => o.owner = .instr e i.ord)
/-- An uncorrectable error at address `a` of a tile's stores is found by a read of instruction `k`, which raises DATA. -/
def dataError (k a : Nat) (s : State) (e : Nat) : State :=
  match issuedFind (engGet s e) k with
  | some x => if x.stage = .moved ∨ readsStore s e x.i a = false then s else failExec (rowFails (spoil s e x a) a) e x 6 a
  | none => s
/-- INSTR_COMPLETE: the instruction completes, or a read of it finds an uncorrectable error at an address. -/
def completeOr (k : Nat) (err : Option Nat) (s : State) (e : Nat) : State :=
  match err with
  | none => completeExec k s e
  | some a => dataError k a s e

/-! Data from and to HBM. -/

/-- The read data of instruction `k` come back (R138, R139, R272). (DEDUCED, log entry 8) -/
def readBack (k : Nat) (s : State) (e : Nat) : State :=
  match issuedFind (engGet s e) k with
  | some x => if x.qu = .mv ∧ x.stage = .running ∧ readsHbm x.i = true then afterXfer e x (readTransfer s e x.i) else s
  | none => s
/-- The writes of instruction `k` are acknowledged by their homes, unless these hold them for the mirror sender (R42, R405). -/
def writeAcked (k : Nat) (s : State) (e : Nat) : State :=
  match issuedFind (engGet s e) k with
  | some x =>
    if x.qu = .mv ∧ x.stage = .running ∧ writesHbm x.i = true ∧ writeHeld s e x.i = false then afterXfer e x (writeTransfer s e x.i)
    else s
  | none => s

/-! Grains. -/

/-- Is a row of sh.grain's source all zero, or does it hold a NaN or an infinity (R179)? -/
def oddRow (s : State) (e : Nat) (x : Oper) (r : Nat) : Bool :=
  let l := (List.range 64).map (elemVal s e x r)
  l.all Fl.isZero || l.any (fun v => !v.isFin)
/-- One grain row: the signs of the outputs under the image in use, each with a free value for residual and noise (R220, R224); an odd row
is all 0 (R179). Whether a row that an outside write met is odd is unspecified (R77). (DEDUCED, log entry 42) -/
def grainRow (e : Nat) (q : QInstr) (s : State) (r : Nat) : State :=
  let d := q.slabA
  let x := operAt q.hs (wB q.word)
  let sh := sheafGet s (e / 16)
  let n := s.free
  let odd := if rowMet q (wB q.word) r then chosen n r else oddRow s e x r
  let bits := grainBits ((List.range 33344).map sh.imageByte) (gWide q.word) (b2n (gSet q.word))
    ((List.range 64).map (fun c => (elemVal s e x r c).fixed)) (fun c => (Config.freeWord (n + c)).toInt)
  let s := (List.range d.cols).foldl (fun s c => elemPut e d s r c (if odd then 0 else b2n (bits.getD c false))) { s with free := n + d.cols }
  if odd then engMod s e (fun g => issuedMod g q.ord (fun y => { y with odd := y.odd + 1 })) else s
/-- A granted group of up to 64 rows comes back from the sheaf (R180). -/
def groupDone (k : Nat) (s : State) (e : Nat) : State :=
  match issuedFind (engGet s e) k with
  | some x =>
    let rows := x.i.slabA.rows
    if wOp x.i.word = 0xF8 ∧ x.lock = true ∧ x.rows < min rows (64 * x.granted) then
      let n := min 64 (rows - x.rows)
      let s := (List.range n).foldl (fun s j => grainRow e x.i s (x.rows + j)) s
      engMod s e (fun g => issuedMod g k (fun y => { y with rows := x.rows + n }))
    else s
  | none => s

/-! The rows of the table. -/

/-- A command that names a tiller and may reach the fabric. -/
def onTiller (f : State → Nat → State) (e : Nat) (s : State) : Host.Outcome State Fault Refusal := onFabric (fun s => f s e) s

/-- INSTR_ISSUE (R70). -/
def execInstrIssue (e : Nat) (x : IssueAt) (s : State) : Host.Outcome State Fault Refusal := onTiller (issueHead x.qu x.freed) e s
/-- INSTR_COMPLETE (R71, R163): `err` is the address of an uncorrectable word that a read of a tile's stores found. -/
def execInstrComplete (e k : Nat) (err : Option Nat) (s : State) : Host.Outcome State Fault Refusal := onTiller (completeOr k err) e s
/-- HBM_WRITE_ACK (R42). -/
def execHbmWriteAck (e k : Nat) (s : State) : Host.Outcome State Fault Refusal := onTiller (writeAcked k) e s
/-- GRAIN_GROUP_DONE (R180). -/
def execGrainGroupDone (e k : Nat) (s : State) : Host.Outcome State Fault Refusal := onTiller (groupDone k) e s

end Sys2Proof.Machine
end

