-- ==== Sys2Proof/Machine/Arb.lean ====
section
/-!
DEFINITION. Arbiters (chapter 15): requesters, weighted round robin, pending queues, starvation.
-/

namespace Sys2Proof.Machine

/-- Does arbiter kind `k` have a requester `r` (Table 15-1)? -/
def assigned (s : State) (k r : Nat) : Bool :=
  if k = 0 then decide (r < 64) || [64, 65, 66, 67, 68, 69, 70, 72, 73, 74].contains r
  else if k = 1 then decide (r < 64)
  else if k = 2 then decide (r < 68) || r == 69 || r == 70 || r == 71
  else if k = 3 then (decide (80 ≤ r) && decide (r < 80 + stacksOf s)) || (decide (64 ≤ r) && decide (r < 68)) || r == 71
  else if k = 4 then decide (r < 64) || [69, 70, 72, 73, 74].contains r
  else if k = 5 then decide (r < 64)
  else if k = 6 then decide (r < 64) || r == 75 else false
/-- The instances of kind `k`. -/
def arbInstances (s : State) (k : Nat) : Nat :=
  if k = 0 then 32 * stacksOf s else if k = 1 then stacksOf s else if k = 2 ∨ k = 3 then 8
  else if k = 4 then portsOf s else if k = 5 then 4 else if k = 6 then 64 else 0
/-- The die that sends on instance `i` of the compute-link arbiters: link i div 2, upward first. -/
def sendingDie (i : Nat) : Nat := (i / 2 + i % 2) % 4
/-- May requester `r` ask instance `i` of kind `k` (Table 15-1)? -/
def mayAsk (s : State) (k i r : Nat) : Bool :=
  assigned s k r && (k != 5 || r / 16 == i) && (k != 6 || r == i || r == 75)
    && (k != 2 || (if r < 64 then r / 16 == sendingDie i else r == 64 + sendingDie i || decide (69 ≤ r)))
    && (k != 3 || (if r < 80 then true else stackSite s (r - 80) / 4 == sendingDie i))
/-- Is the resource of instance `i` of kind `k` a compute link that is lost (R15)? -/
def linkLost (s : State) (k i : Nat) : Bool := (k == 2 || k == 3) && s.ms.sitesLost.contains (i / 2)

/-- The weight of requester `r` at kind `k`. -/
def weightOf (s : State) (k r : Nat) : Nat := (tblGet (fun _ => 1) s.arb.w (128 * k + r)).toNat
/-- MEM_ARB_STARVE_TH_k. -/
def starveTh (s : State) (k : Nat) : Nat := (tblGet (fun _ => 4096) s.arb.th k).toNat
/-- An arbiter instance. -/
def arbGet (s : State) (k i : Nat) : Arb := tblGet (fun _ => Arb.init) s.arb.inst (1024 * k + i)
/-- Sets an arbiter instance. -/
def arbPut (s : State) (k i : Nat) (a : Arb) : State :=
  { s with arb := { s.arb with inst := tblSet (fun _ => Arb.init) s.arb.inst (1024 * k + i) a } }

/-! Requests that lie in other units. -/

/-- The first packet parked for requester `r` at port `p`, if it can be granted: a request needs an outstanding entry (R354). -/
def injHead (s : State) (p r : Nat) : Option Inj :=
  match (portGet s p).inj.find? (fun i => i.r == r) with
  | some i => if i.o.isNone || outRoom s then some i else none
  | none => none
/-- The sh.grain of engine `e` whose next group waits for its grant. -/
def grainHead (s : State) (e : Nat) : Option XInstr :=
  (engGet s e).exec.find? (fun x => wOp x.i.word == 0xF8 && x.lock && decide (64 * x.granted < x.i.slabA.rows))
/-- Does a request of `r` wait, for the kinds whose requests lie in other units? -/
def waits (s : State) (k i r : Nat) : Bool :=
  if k = 4 then (portGet s i).inj.any (fun x => x.r == r) else if k = 5 then r / 16 == i && (grainHead s r).isSome else false
/-- Can the resource accept the oldest request of `r`, for the kinds whose requests lie in other units? -/
def canServe (s : State) (k i r : Nat) : Bool :=
  if k = 4 then portUp s i && (injHead s i r).isSome
  else if k = 5 then (sheafGet s i).st == .ready && (grainHead s r).isSome
  else true

/-- The arbitration cycles for which the unit granted to `r` keeps the resource: at a pseudo-channel of 38.4 GB/s a sector of 256 bytes, or
a granule of 64 of the gather engine (R17, R259). (DEDUCED, log entry 71) -/
def unitCycles (s : State) (k i r : Nat) : Nat :=
  if k = 4 then
    match injHead s i r with
    | some x => cdiv (cdiv (32 + x.pkt.payload.length) 240 * 384) (25 * max 1 (portGet s i).txLanes.toNat)
    | none => 0
  else if k = 5 then
    match grainHead s r with
    | some x => cdiv (3 * 2 ^ gIfc x.i.word * (if gWide x.i.word then 2 else 1) * min 64 (x.i.slabA.rows - 64 * x.granted)) 64
    | none => 0
  else if k = 0 then (if r = 68 then 3 else 10)
  else 1

/-- The requests that arrive with a decision: one more for each further time `ready` names a requester (kinds 0 to 3 and 6); of
those that find a queue of 16 full, an engine's count in PEND_FULL (R288, R290). -/
def arrive (l : List Req) (r extra : Nat) : List Req × Nat :=
  match l.find? (fun x => x.r == r) with
  | some x =>
    let n := min 16 (x.n + extra)
    (l.map (fun y => if y.r = r then { y with n := n } else y), x.n + extra - n)
  | none => (l ++ [⟨r, min 16 (1 + extra), 0, false⟩], 1 + extra - min 16 (1 + extra))

/-- The cycle's stall of engine `r` at a full queue of 16 at instance `i` of kind 4 or 5, if there is one: a packet of a fabric instruction
that the queue of its port has no room for, a group of sh.grain beyond the sixteenth that waits (R288). -/
def stallsAt (s : State) (k i r : Nat) : Bool :=
  if k = 4 then
    !injRoom s i r && s.rmt.ops.any (fun o => match o.owner with
      | Owner.instr e _ => e == r && stalledAt s o == some i
      | _ => false)
  else match grainHead s r with
    | some x => r / 16 == i && decide (16 * 64 < x.i.slabA.rows - 64 * x.granted)
    | none => false
/-- An engine's stall is counted in PEND_FULL. -/
def pendFull (s : State) (r n : Nat) : State :=
  if r < 64 ∧ n ≠ 0 then engMod s r (fun g => (List.range n).foldl (fun g _ => g.count 20) g) else s
/-- The pending queues after the arrivals that `ready` names; at kinds 4 and 5, what lies in other units. -/
def arrivals (s : State) (k i : Nat) (ready : List Nat) : List Req × State :=
  (List.range 128).foldl (fun t r =>
    let c := (ready.filter (fun x => x == r)).length
    if !mayAsk s k i r then t
    else if k = 4 ∨ k = 5 then
      (if waits s k i r then (arrive t.1 r 0).1 else t.1.filter (fun x => x.r != r), pendFull t.2 r (b2n (decide (r < 64) && stallsAt s k i r)))
    else if c = 0 then t
    else
      let a := arrive t.1 r (c - 1)
      (a.1, pendFull t.2 r a.2))
    ((arbGet s k i).reqs, s)

/-- A request starves (R289): counts and records; an interrupt and a fault record only where the flag was clear. -/
def starve (s : State) (k i r : Nat) : State :=
  let old := tblGet (fun _ => 0) s.arb.starve k
  let last := BitVec.ofNat 64 (r + i * 2 ^ 8 + (s.beat.now.toNat % 2 ^ 32) * 2 ^ 32)
  let s := { s with arb := { s.arb with
    starve := tblSet (fun _ => 0) s.arb.starve k (putBit old r true), last := tblSet (fun _ => 0) s.arb.last k last,
    count := tblMod (fun _ => 0) s.arb.count k satInc } }
  let s := evPut s .memArb (putBit (evGet s .memArb) k true)
  if old.getLsbD r then s
  else record (interrupt s) 5 0 3 (BitVec.ofNat 8 k) 0 (evDetail s .memArb i r 0)

/-- The packet that a grant sends: a commit record carries the beat at which it is sent (Table 21-2). -/
def sentPacket (s : State) (x : Inj) : Packet :=
  match (x.o.bind (fun o => opGet s o.op)).map (fun o => (o.owner, o.got)) with
  | some (Owner.commit _ _ _, h) => { x.pkt with payload := commitRecord s h }
  | _ => x.pkt
/-- What a grant hands over: the parked packet enters its port's queue with its tag, or the sheaf takes a group.
(DEDUCED, log entry 150) -/
def grant (s : State) (k i r : Nat) : State :=
  if k = 4 then
    match injHead s i r with
    | none => s
    | some x =>
      let pt := portGet s i
      let k := sentPacket s x
      let s := unstall (portPut s i { pt with inj := pt.inj.erase x }) i r
      let (tag, s) := match x.o with
        | some o => takeEntry s o
        | none => (x.pkt.tag.toNat, s)
      let c := vcGet s i x.vc
      vcPut s i x.vc { c with loc := c.loc ++ [(r, { k with tag := BitVec.ofNat 16 tag })] }
  else if k = 5 then
    match grainHead s r with
    | none => s
    | some x =>
      engMod s r (fun g => issuedMod g x.i.ord (fun y =>
        { y with granted := y.granted + 1, epoch := if y.granted = 0 then (sheafGet s i).epoch else y.epoch }))
  else s

/-- Flags the requests that have reached the threshold (R289, R290): the queues, flagged, and the reports. -/
def flagStarved (s : State) (k i : Nat) (reqs : List Req) : List Req × State :=
  let hungry (x : Req) : Bool := !x.told && decide (starveTh s k ≤ x.age)
  (reqs.map (fun x => if hungry x then { x with told := true } else x), each (reqs.filter hungry) s (fun s x => starve s k i x.r))
/-- The share of cycles, in eightieths, in which a stack at temperature `t` may grant (Table 22-4).
(DESIGN CHOICE, log entry 162) -/
def hbmShare (t : Int) : Nat := (max 20 (min 80 (80 - (t - 712)))).toNat
/-- Does the throttled stack of pseudo-channel `i` withhold this cycle (R444)? Cycles are spread evenly.
(DESIGN CHOICE, log entry 162) -/
def withholds (s : State) (k i : Nat) : Bool × State :=
  if k = 0 ∧ (stackGet s (i / 32)).throttle = true then
    let c := tblGet (fun _ => 0) s.arb.saved i + hbmShare (tblGet (fun _ => 0) s.thm.hbm (i / 32))
    (decide (c < 80), { s with arb := { s.arb with saved := tblSet (fun _ => 0) s.arb.saved i (c % 80) } })
  else (false, s)
/-- One decision (R285): arrivals, ages already at the threshold, the winner's grant, the ages of the others. A cycle that a throttled stack
withholds serves no requester and ages none (R444). -/
def decision (k i : Nat) (ready : List Nat) (s : State) : State :=
  if arbInstances s k ≤ i ∨ linkLost s k i = true then s
  else
    let (reqs, s) := arrivals s k i ready
    let (reqs, s) := flagStarved s k i reqs
    let (held, s) := withholds s k i
    let a := arbGet s k i
    let cands := (List.range 128).filter (fun r =>
      !held && ready.contains r && mayAsk s k i r && canServe s k i r && reqs.any (fun x => x.r == r))
    match wrrPick (weightOf s k) a.p a.used cands with
    | none => arbPut s k i { a with reqs := reqs }
    | some (w, u) =>
      let cost := unitCycles s k i w
      let (p, used) := wrrStep (weightOf s k) 128 w u
      let aged := reqs.map (fun x => if x.r = w then { x with n := x.n - 1, age := 0, told := false } else { x with age := x.age + cost })
      let s := grant s k i w
      let keep (x : Req) : Bool := x.r != w || (if k = 4 ∨ k = 5 then waits s k i w else decide (0 < x.n))
      let (reqs, s) := flagStarved s k i (aged.filter keep)
      arbPut s k i ⟨p, used, reqs⟩

/-- A weight write: fields of unassigned requesters have no effect; weight 0 refuses the whole write (R287, R291). -/
def weightWrite (k g : Nat) (v : W32) (s : State) : State :=
  let f := (List.range 8).filter (fun i => assigned s k (8 * g + i))
  if 7 ≤ k ∨ 16 ≤ g then s
  else if f.any (fun i => fld v (4 * i) 4 == 0) then event s .memArb 7 k
  else
    each f s (fun s i =>
      { s with arb := { s.arb with w := tblSet (fun _ => 1) s.arb.w (128 * k + 8 * g + i) (BitVec.ofNat 4 (fld v (4 * i) 4)) } })

/-- ARB_DECISION (R285). -/
def execArbDecision (kind inst : Nat) (ready : List Nat) (s : State) : Host.Outcome State Fault Refusal :=
  onFabric (decision kind inst ready) s
/-- ARB_WEIGHT_WRITE (R287). -/
def execArbWeightWrite (kind g : Nat) (v : W32) (s : State) : Host.Outcome State Fault Refusal := run s (fwOnly (weightWrite kind g v))

end Sys2Proof.Machine
end

