-- ==== Sys2Proof/Machine/Target.lean ====
section
/-!
DEFINITION. Packets that end at this chip: requests served at their target (R356 to R362, R366), and responses at their source
(R353, R363, R364).
-/

namespace Sys2Proof.Machine

/-- The flits of a packet (R301). -/
def packetFlits (p : Packet) : Nat := cdiv (32 + p.payload.length) 240

/-- Is an arrived packet the oldest of its circuit in its buffer? A circuit's packets keep their order (R341). -/
def oldestOf (l : List Packet) (k : Packet) : Bool :=
  l.find? (fun x => x.slice == k.slice && x.src == k.src && x.dst == k.dst) == some k
/-- Has this packet arrived on virtual channel `v` of a port? Management packets on VC6 are not looked at (R321), and of a circuit's
packets only the oldest counts (R341). -/
def arrivedIn (s : State) (p v : Nat) (k : Packet) : Bool :=
  decide (v < 8) && v != 6 && (if v = 7 then oldestOf (vcGet s p 7).arr k else (vcGet s p v).arr.contains k)
/-- The first virtual channel of a port on which a packet has arrived. (DEDUCED, log entry 148) -/
def arrivedOn (s : State) (p : Nat) (k : Packet) : Option Nat := [0, 1, 2, 3, 4, 5, 7].find? (fun v => arrivedIn s p v k)
/-- Takes an arrived packet out of its buffer; its flits become credits to return (R303). -/
def takeArrived (s : State) (p v : Nat) (k : Packet) : State :=
  let c := vcGet s p v
  vcPut s p v { c with arr := c.arr.erase k, owed := c.owed + packetFlits k }

/-- Where a packet for this chip is taken from: a port on which it arrived, with its virtual channel, or the loopback of R2. -/
inductive Took where
  | absent
  | loop (s : State)
  | port (s : State) (p v : Nat)

/-- Takes a packet that a command names. -/
def takePacket (s : State) (src : Option Nat) (k : Packet) : Took :=
  match src with
  | none => if s.rmt.loop.contains k then .loop { s with rmt := { s.rmt with loop := s.rmt.loop.erase k } } else .absent
  | some p =>
    if !portUp s p || reservedPort s p then .absent
    else
      match arrivedOn s p k with
      | some v => .port (takeArrived s p v k) p v
      | none => .absent

/-- The checks on arrival: fence (R416), age (R326), slice (R320); `act` follows if none drops the packet, `lost` a drop. -/
def acceptPacket (s : State) (k : Packet) (act : State → State) (lost : State → State := fun s => s) : State :=
  if fenced s k.src then lost (fenceDrop s)
  else if s.rt.ageLim.toNat ≤ k.age.toNat then lost (ageDrop s)
  else if k.slice = 0 ∨ k.slice ≠ s.rt.slice then lost (sliceDrop s)
  else act s

/-- A packet of type `t` that a command names is taken in and, if the checks let it through, acted on. A packet for another
chip, or one on a circuit that goes on, is not taken; one on VC7 without a live entry is dropped (R342). -/
def receive (t : Nat) (act : State → Packet → State) (s : State) (src : Option Nat) (k : Packet) : State :=
  if k.ptype.toNat ≠ t then s
  else
    match takePacket s src k with
    | .absent => s
    | .loop s1 => acceptPacket s1 k (fun s => act s k)
    | .port s1 p v =>
      if k.mcast then s
      else if v = 7 then
        match cktFind s p k.slice k.src k.dst with
        | some n =>
          let c := cktGet s n
          if c.st = 2 ∧ c.out = 0x7F then acceptPacket s1 k (fun s => act s k) (fun s => cktDrop s n k)
          else if c.st = 3 then cktDrop s1 n k else s
        | none => cktDrop s1 0 k
      else if k.dst ≠ s.rt.chip then s
      else acceptPacket s1 k (fun s => act s k)

/-! Requests at their target (R356, R357). -/

/-- Steps 3 to 6 of R356: the local address, or the status of the answer. -/
def targetCheck (s : State) (k : Packet) (len perm : Nat) : Except Byte Nat :=
  if flushing s then .error stReclaimed
  else if quiet s then .error stLease
  else
    match rgnLocal s k.slice k.offset.toNat len perm with
    | none => .error stProt
    | some a => if (k.ptype = 2 ∧ k.aop = 3 ∧ s.rt.repro = true) ∨ hbmOk s a len = false then .error stProt else .ok a

/-- Answers a request. -/
def answer (s : State) (k : Packet) (t : Nat) (status : Byte) (payload : List Byte) (aux : W64) : State :=
  sendResponse s { ownPacket s t k.src 0 payload with tag := k.tag, status := status, aux := aux }
/-- A PROT_DENIED answer is counted and recorded (R369). -/
def denied (s : State) (k : Packet) : State :=
  event { s with rmt := { s.rmt with deny := satInc s.rmt.deny } } .rmt 1 0 0 0 k.offset.toNat
/-- An answer that refuses. -/
def refuse (s : State) (k : Packet) (t : Nat) (status : Byte) (aux : W64) : State :=
  answer (if status = stProt then denied s k else s) k t status [] aux

/-- READ_REQ (R358). -/
def serveRead (s : State) (k : Packet) : State :=
  let n := fld k.aux 0 13
  match targetCheck s k n 1 with
  | .error st => refuse s k 3 st 0
  | .ok a =>
    if readFails s a n then answer (noteUes s a n) k 3 stData [] 0
    else answer s k 3 stDone (memRead s.mem a n) 0

/-- WRITE_REQ and MIRROR_WRITE (R358, R366): `wr` is the home write, `perm` the permission. A multicast copy is acknowledged with
the member it reached (R332). A write that the homes hold for the mirror sender is not taken yet (R405).
(DEDUCED, log entry 143) -/
def serveWrite (perm : Nat) (wr : State → Nat → List Byte → State) (s : State) (k : Packet) : State :=
  let n := k.payload.length
  let one : W64 := if k.mcast then 1 else 0
  match targetCheck s k n perm with
  | .error st => refuse s k 4 st one
  | .ok a =>
    let (m, s1) := homeWrite wr 0 s a k.payload
    answer s1 k 4 m.status [] one

/-- The word that an atomic leaves (R359, Table 7-8). -/
def atomNew (aop old : Nat) (opnd : W64) (swap : Nat) : Nat :=
  if aop = 0 then (old + opnd.toNat) % 2 ^ 64
  else if aop = 1 then (old + opnd.toNat) % 2 ^ 32
  else if aop = 2 then (if old = opnd.toNat then swap else old)
  else toF32 (f32add (ofF32 old) (ofF32 (opnd.toNat % 2 ^ 32)))
/-- ATOMIC_REQ (R359). A compare that fails writes nothing. -/
def serveAtomic (s : State) (k : Packet) : State :=
  let aop := k.aop.toNat
  let w := if aop = 1 ∨ aop = 3 then 4 else 8
  match targetCheck s k w 3 with
  | .error st => refuse s k 5 st 0
  | .ok a =>
    if readFails s a w then answer (noteUes s a w) k 5 stData [] 0
    else
      let old := memNat s a w
      let swap := leNat k.payload
      let s1 := if aop = 2 ∧ old ≠ k.aux.toNat then s else hbmWrite s a (leBytes w (atomNew aop old k.aux swap))
      answer s1 k 5 stDone [] (BitVec.ofNat 64 old)

/-- Would the homes hold the write of a request for the mirror sender (R405)? -/
def targetHeld (s : State) (k : Packet) : Bool :=
  let n := if k.ptype = 2 then 8 else k.payload.length
  match targetCheck s k n (if k.ptype = 2 then 3 else 2) with
  | .ok a => mirHolds s a n
  | .error _ => false
/-- Would the homes hold a mirror write, which is never mirrored itself, for a directory that is being cleared (R269)? -/
def mirrorHeld (s : State) (k : Packet) : Bool :=
  match targetCheck s k k.payload.length 4 with
  | .ok a => dirHolds s a k.payload.length
  | .error _ => false
/-- Acts unless the homes hold the request's write. -/
def unlessHeld (f : State → State) (k : Packet) (s : State) : State := if targetHeld s k then s else f s

/-! Responses at their source. -/

/-- A response with no request waiting for it (R364). -/
def lateResponse (s : State) : State := event { s with rmt := { s.rmt with late := satInc s.rmt.late } } .rmt 2
/-- The outstanding request that a response answers. -/
def outMatch (s : State) (k : Packet) (types : List Nat) : Option Outst :=
  match outFind s k.tag.toNat with
  | some o => if types.contains o.ptype && (o.dst == k.src || o.want != 0) then some o else none
  | none => none

/-- Stores read data at the places of a request (R362), refusals of the map told with `status`; what the stores meet.
(DEDUCED, log entry 86) -/
def storeRead (wr : State → Nat → List Byte → State) (status : Byte) : State → List (Nat × Nat) → List Byte → Met × State
  | s, [], _ => (.none, s)
  | s, (a, n) :: t, bs =>
    let (m, s) := if 2 ^ 40 ≤ a then (.none, memPut s a (bs.take n)) else homeWrite wr status s a (bs.take n)
    let (m', s) := storeRead wr status s t (bs.drop n)
    (m.and m', s)
/-- The data of a READ_RESP go to the place that the operation names; those of an operation given up are discarded. -/
def takeData (s : State) (o : Outst) (bs : List Byte) : Met × State :=
  match (opGet s o.op).map (fun x => x.owner) with
  | none => (.none, s)
  | some Owner.nobody => (.none, s)
  | some (Owner.rebRecord _) => (.none, opMod s o.op (fun x => { x with got := bs }))
  | some (Owner.rebuild n) =>
    let (m, s) := storeRead hbmWriteLocal 0 s o.loc bs
    (m, each (s.mir.stray.filter (fun x => x.1 == n)) s (fun s x => memForget s x.2.1 x.2.2))
  | _ => storeRead hbmWrite stProt s o.loc bs

/-- READ_RESP. -/
def gotRead (s : State) (k : Packet) : State :=
  match outMatch s k [0] with
  | none => lateResponse s
  | some o =>
    if k.status ≠ stDone then settleOut s o k.status 0
    else
      let (m, s) := takeData s o k.payload
      settleMet s o m o.len
/-- WRITE_ACK. -/
def gotAck (s : State) (k : Packet) : State :=
  match outMatch s k [1, 6] with
  | none => lateResponse s
  | some o =>
    if o.want ≠ 0 then mcSettle s o.tag (fld k.aux 0 16) (fld k.aux 16 16) k.status
    else settleOut s o k.status o.len
/-- ATOMIC_RESP. -/
def gotAtomic (s : State) (k : Packet) : State :=
  match outMatch s k [2] with
  | none => lateResponse s
  | some o => settleOut (opMod s o.op (fun x => { x with old := k.aux })) o k.status 0

/-- Would the homes hold the data of a READ_RESP for the mirror sender, or for a directory that is being cleared (R269, R405)? -/
def dataHeld (s : State) (k : Packet) : Bool :=
  match outMatch s k [0] with
  | some o =>
    let l := o.loc.filter (fun p => decide (p.1 < 2 ^ 40))
    match (opGet s o.op).map (fun x => x.owner) with
    | none => false
    | some Owner.nobody => false
    | some (Owner.rebRecord _) => false
    | some (Owner.rebuild _) => l.any (fun p => dirHolds s p.1 p.2)
    | _ => mirHoldsAll s l
  | none => false

/-! The rows of the table. -/

/-- READ_REQ (R356). -/
def execReadReq (src : Option Nat) (pkt : Packet) (s : State) : Host.Outcome State Fault Refusal :=
  onFabric (fun s => receive 0 serveRead s src pkt) s
/-- WRITE_REQ (R356). -/
def execWriteReq (src : Option Nat) (pkt : Packet) (s : State) : Host.Outcome State Fault Refusal :=
  onFabric (unlessHeld (fun s => receive 1 (serveWrite 2 hbmWrite) s src pkt) pkt) s
/-- ATOMIC_REQ (R359). -/
def execAtomicReq (src : Option Nat) (pkt : Packet) (s : State) : Host.Outcome State Fault Refusal :=
  onFabric (unlessHeld (fun s => receive 2 serveAtomic s src pkt) pkt) s
/-- MIRROR_WRITE (R366): never mirrored further (R403). -/
def execMirrorWrite (src : Option Nat) (pkt : Packet) (s : State) : Host.Outcome State Fault Refusal :=
  onFabric (fun s => if mirrorHeld s pkt then s else receive 6 (serveWrite 4 hbmWriteLocal) s src pkt) s
/-- READ_RESP (R353). -/
def execReadResp (src : Option Nat) (pkt : Packet) (s : State) : Host.Outcome State Fault Refusal :=
  onFabric (fun s => if dataHeld s pkt then s else receive 3 gotRead s src pkt) s
/-- WRITE_ACK (R353). -/
def execWriteAck (src : Option Nat) (pkt : Packet) (s : State) : Host.Outcome State Fault Refusal :=
  onFabric (fun s => receive 4 gotAck s src pkt) s
/-- ATOMIC_RESP (R353). -/
def execAtomicResp (src : Option Nat) (pkt : Packet) (s : State) : Host.Outcome State Fault Refusal :=
  onFabric (fun s => receive 5 gotAtomic s src pkt) s
/-- A STREAM_ACK (R302): the record it names is acknowledged, or fails where the status is not DONE. (DEDUCED, log entry 52) -/
def gotStreamAck (p : Nat) (k : Packet) (s : State) : State :=
  if !portUp s p || !reservedPort s p || k.ptype != 8 then s
  else
    match arrivedOn s p k with
    | none => s
    | some v =>
      let s := takeArrived s p v k
      let pos : W32 := k.offset.setWidth 32
      if k.slice ≠ s.rt.slice ∨ k.stream.toNat ≠ fld s.shf.jrnlDest 16 16 then s
      else if k.status = stDone then { s with shf := { s.shf with jout := s.shf.jout.filter (fun j => !(j.user == k.aux && j.pos == pos)) } }
      else journalLost s k.aux pos stTimeout
/-- STREAM_ACK (R302). -/
def execStreamAck (p : Nat) (pkt : Packet) (s : State) : Host.Outcome State Fault Refusal := onFabric (gotStreamAck p pkt) s
/-- REMOTE_TIMEOUT (R363). -/
def execRemoteTimeout (tag : Nat) (s : State) : Host.Outcome State Fault Refusal := onFabric (fun s => timeoutTag s tag) s

end Sys2Proof.Machine
end

