-- ==== Sys2Proof/Machine/Circuit.lean ====
section
/-!
DEFINITION. Circuits and slots (R338 to R347), multicast writes (R349) and the remote descriptors (R355).
-/

namespace Sys2Proof.Machine

/-! Slots (R338, R339). -/

/-- Does a circuit entry select slot entry `i`? -/
def Ckt.selects (c : Ckt) (i : Nat) : Bool := c.slots.getLsbD (i % 8) && (i / 8) % 2 ^ c.stride.toNat == c.phase.toNat
/-- The circuit entry that slot entry `i` of port `p` is reserved for (FAB_SLOT_p_i). -/
def slotOwner (s : State) (p i : Nat) : Option Nat :=
  (List.range 256).find? (fun n => let c := cktGet s n; c.st != 0 && c.out.toNat == p && c.selects i)
/-- Is `x` LOCAL or an UP port? -/
def endUp (s : State) (x : BitVec 7) : Bool := x == 0x7F || portUp s x.toNat

/-! Held packets, BROKEN, FREE (R342, R343). -/

/-- Does a packet carry the slice, source and target of a circuit? -/
def Ckt.carries (c : Ckt) (k : Packet) : Bool := c.slice == k.slice && c.src == k.src && c.dst == k.dst
/-- A packet of circuit `n` that is dropped before it has left its source is counted, and its operation hears of it. -/
def cktDropOwn (s : State) (n : Nat) : State := event { s with ckt := { s.ckt with drop := satInc s.ckt.drop } } .ckt 2 n
/-- The packets of circuit `n` that are held at this chip are dropped under R342: those received and not taken on, those that
wait to be sent, what has not left of the one being sent, those parked before their arbiter. -/
def dropHeld (s : State) (n : Nat) : State :=
  let c := cktGet s n
  let s :=
    if c.inp = 0x7F then s
    else
      let p := c.inp.toNat
      each ((vcGet s p 7).arr.filter c.carries) s (fun s k => cktDrop (takeArrived s p 7 k) n k)
  if c.out = 0x7F then s
  else
    let p := c.out.toNat
    let v := vcGet s p 7
    let mineF (x : Nat × Packet) : Bool := x.1 == c.inp.toNat && c.carries x.2
    let mineL (x : Nat × Packet) : Bool := c.inp == 0x7F && c.carries x.2
    let cut := v.curPkt.filter (fun x => mineF x.2)
    let s := vcPut s p 7 { v with fwd := v.fwd.filter (fun x => !mineF x), loc := v.loc.filter (fun x => !mineL x),
                                  cur := if cut.isSome then [] else v.cur, curPkt := if cut.isSome then none else v.curPkt }
    let s := each (cut.toList.map (fun x => x.2.2) ++ (v.fwd.filter mineF).map (fun x => x.2) ++ (v.loc.filter mineL).map (fun x => x.2)) s
      (fun s k => cktDrop s n k)
    let hit (i : Inj) : Bool := c.inp == 0x7F && i.vc == 7 && c.carries i.pkt
    let x := portGet s p
    let s := each ((x.inj ++ x.stall).filter hit) s (fun s _ => cktDropOwn s n)
    failParked s p hit stLink
/-- An ACTIVE circuit breaks. -/
def cktBreak (s : State) (n : Nat) : State := dropHeld (event (cktPut s n { cktGet s n with st := 3 }) .ckt 1 n) n
/-- A circuit entry is freed with its slots. -/
def cktFree (s : State) (n : Nat) : State := cktPut (dropHeld s n) n Ckt.free
/-- Port `p` leaves UP: the ACTIVE circuits through it break. -/
def cktPortLost (s : State) (p : Nat) : State :=
  each ((List.range 256).filter (fun n => let c := cktGet s n; c.st == 2 && (c.inp.toNat == p || c.out.toNat == p))) s cktBreak

/-- Activation at ACT_BEAT, after what R58 puts before it. -/
def cktActivate (s : State) (n : Nat) : State :=
  let c := cktGet s n
  if c.st ≠ 1 ∨ s.beat.now.ult c.act ∨ cutDue s = true ∨ hintDue s = true ∨ switchDue s = true then s
  else if endUp s c.inp && endUp s c.out then event (cktPut s n { c with st := 2 }) .ckt 0 n
  else event (cktPut s n { c with st := 3 }) .ckt 1 n

/-! Setup and teardown (R344 to R346). -/

/-- The entry that holds a circuit number. -/
def cktOf (s : State) (k : Nat) : Option Nat := (List.range 256).find? (fun n => (cktGet s n).st != 0 && (cktGet s n).ckt.toNat == k)
/-- The entry that a CKT_SETUP describes. -/
def cktNew (d : List Byte) : Ckt :=
  { ckt := BitVec.ofNat 12 (dNat d 32 2), st := 1, slice := BitVec.ofNat 12 (dNat d 44 2), src := BitVec.ofNat 16 (dNat d 36 2),
    dst := BitVec.ofNat 16 (dNat d 38 2), inp := BitVec.ofNat 7 (dByte d 34), out := BitVec.ofNat 7 (dByte d 35),
    slots := BitVec.ofNat 8 (dByte d 40), stride := BitVec.ofNat 3 (dByte d 41), phase := BitVec.ofNat 6 (dByte d 42),
    act := BitVec.ofNat 64 (dNat d 48 8) }
/-- Do the reserved fields of a CKT_SETUP hold 0? -/
def cktSetupForm (d : List Byte) : Bool :=
  commonForm d false && dLen d == 0 && dNat d 32 2 / 4096 == 0 && dByte d 34 / 128 == 0 && dByte d 35 / 128 == 0 && dByte d 41 / 8 == 0
    && dByte d 42 / 64 == 0 && dByte d 43 == 0 && dNat d 44 2 / 4096 == 0 && dZero d 46 48 && dZero d 56 64
/-- A port that a circuit may use. -/
def cktPortOk (s : State) (x : BitVec 7) : Bool := x == 0x7F || (decide (x.toNat < portsOf s) && !reservedPort s x.toNat)
/-- The conditions of R345. -/
def cktSetupOk (s : State) (d : List Byte) : Bool :=
  let c := cktNew d
  cktSetupForm d && c.inp != c.out && (c.inp != 0x7F || c.src == s.rt.chip) && (c.out != 0x7F || c.dst == s.rt.chip)
    && cktPortOk s c.inp && cktPortOk s c.out && (if c.out = 0x7F then c.slots == 0 else c.slots != 0)
    && decide (c.stride.toNat ≤ 6) && decide (c.phase.toNat < 2 ^ c.stride.toNat) && c.slice != 0
    && (cktOf s c.ckt.toNat).isNone && (cktFind s c.inp.toNat c.slice c.src c.dst).isNone
    && (List.range 256).any (fun n => (cktGet s n).st == 0)
    && !(c.out != 0x7F && (List.range 256).any (fun n =>
          let e := cktGet s n
          e.st != 0 && e.out == c.out && (List.range 512).any (fun i => e.selects i && c.selects i)))
    && decide (s.beat.now.toNat + 2 ≤ c.act.toNat)
/-- Are new circuits refused for the state of the beat (R53, R345)? -/
def beatRefuses (s : State) : Bool :=
  match s.beat.st with
  | .unsynced => true
  | .acquiring => true
  | .conflict => true
  | .holdover => decide (4096 ≤ s.beat.holdLen.toNat)
  | _ => false
/-- The lowest FREE entry takes a circuit. -/
def cktInstall (s : State) (d : List Byte) : State :=
  match (List.range 256).find? (fun n => (cktGet s n).st == 0) with
  | some n => cktPut s n (cktNew d)
  | none => s
/-- A CKT_SETUP completed other than DONE; the record names the lowest entry. (DEDUCED, log entry 83) -/
def setupRefused (s : State) : State := event s .ckt 3
/-- Do the fields of a CKT_TEARDOWN hold, and does an entry hold its CKT? -/
def cktTeardownOk (s : State) (d : List Byte) : Bool :=
  commonForm d false && dLen d == 0 && dNat d 32 2 / 4096 == 0 && dZero d 34 64 && (cktOf s (dNat d 32 2)).isSome
/-- CKT_TEARDOWN acts. -/
def cktRemove (s : State) (d : List Byte) : State :=
  match cktOf s (dNat d 32 2) with
  | some n => cktFree s n
  | none => s

/-- The check of CKT_SETUP. -/
def setupCheck (s : State) (t : QTab) (d : List Byte) : DCheck :=
  ⟨cktSetupOk s d, [], (if t.privF then [] else [stProt]) ++ (if beatRefuses s then [stLink] else [])⟩
/-- The check of CKT_TEARDOWN. -/
def teardownCheck (s : State) (t : QTab) (d : List Byte) : DCheck := ⟨cktTeardownOk s d, [], if t.privF then [] else [stProt]⟩

/-- CKT_SETUP (R345). -/
def execCktSetup (q : Nat) (s : State) : Host.Outcome State Fault Refusal :=
  onFabric (fun s => descRow 0x40 setupCheck noWait (fun s k d => complete (cktInstall s d) k stDone 0) s q setupRefused) s
/-- CKT_TEARDOWN (R346). -/
def execCktTeardown (q : Nat) (s : State) : Host.Outcome State Fault Refusal :=
  onFabric (fun s => descRow 0x41 teardownCheck noWait (fun s k d => complete (cktRemove s d) k stDone 0) s q) s
/-- CIRCUIT_ACTIVATION (R343). -/
def execCircuitActivation (n : Nat) (s : State) : Host.Outcome State Fault Refusal := onFabric (fun s => cktActivate s n) s
/-- CIRCUIT_REFUSE (R53). -/
def execCircuitRefuse (s : State) : Host.Outcome State Fault Refusal :=
  run s (fun s => if s.beat.st = .holdover ∧ 4096 ≤ s.beat.holdLen.toNat then event s .beat 1 else s)
/-- CIRCUIT_RELEASE (R53). -/
def execCircuitRelease (s : State) : Host.Outcome State Fault Refusal :=
  onFabric (fun s =>
    if s.beat.st = .holdover ∧ 16384 ≤ s.beat.holdLen.toNat then
      event (each ((List.range 256).filter (fun n => (cktGet s n).st != 0)) s cktFree) .beat 2
    else s) s

/-! Descriptors of the fabric. -/

/-- A started descriptor that now waits for its packets. -/
def waitRemote (s : State) (k : Nat) : State := stMod s k (fun d => { d with wait := .remote })

/-- The check of MC_WRITE. -/
def mcCheck (_ : State) (_ : QTab) (d : List Byte) : DCheck :=
  let r := hbmRange (dNat d 40 6) (dLen d) false
  ⟨commonForm d false && dNat d 32 2 / 4096 == 0 && dZero d 34 40 && dZero d 46 48 && dZero d 54 64, [r], []⟩
/-- MC_WRITE acts. -/
def mcStart (s : State) (k : Nat) (d : List Byte) : State :=
  if dLen d = 0 then complete s k stDone 0
  else
    startRemote (waitRemote s k) (.desc k) 69 1 0 (BitVec.ofNat 64 (dNat d 32 2 * 2 ^ 48)) false
      [(dNat d 48 6, dLen d, dNat d 40 6)] (fun o => { o with mcast := true, old := BitVec.allOnes 64 })

/-- The check of RMT_WRITE and RMT_READ. -/
def rmtCheck (write : Bool) (_ : State) (_ : QTab) (d : List Byte) : DCheck :=
  let r := hbmRange (dNat d 40 6) (dLen d) write
  ⟨commonForm d false && decide (dNat d 46 2 < 2) && dZero d 48 64, [r], []⟩
/-- RMT_WRITE and RMT_READ act. -/
def rmtStart (ptype : Nat) (s : State) (k : Nat) (d : List Byte) : State :=
  if dLen d = 0 then complete s k stDone 0
  else
    startRemote (waitRemote s k) (.desc k) 69 ptype 0 (BitVec.ofNat 64 (dNat d 32 8)) (dNat d 46 2 == 1)
      [(dNat d 32 6, dLen d, dNat d 40 6)] id
/-- AOP of an RMT_ATOMIC. -/
def rmtAop (d : List Byte) : Nat := dNat d 46 2 / 2
/-- The check of RMT_ATOMIC. -/
def atomCheck (_ : State) (_ : QTab) (d : List Byte) : DCheck :=
  let r := hbmRange (dNat d 40 6) 8 true
  let w := if rmtAop d = 1 ∨ rmtAop d = 3 then 4 else 8
  ⟨commonForm d false && dLen d == 0 && decide (rmtAop d < 4) && (rmtAop d == 2 || dZero d 56 64) && dNat d 40 6 % 8 == 0
      && dNat d 32 6 % w == 0, [r], []⟩
/-- RMT_ATOMIC acts. -/
def atomStart (s : State) (k : Nat) (d : List Byte) : State :=
  startRemote (waitRemote s k) (.desc k) 69 2 (rmtAop d) (BitVec.ofNat 64 (dNat d 32 8)) (dNat d 46 2 % 2 == 1)
    [(dNat d 32 6, if rmtAop d = 1 ∨ rmtAop d = 3 then 4 else 8, dNat d 40 6)]
    (fun o => { o with aop := rmtAop d, opnd := BitVec.ofNat 64 (dNat d 48 8), swap := BitVec.ofNat 64 (dNat d 56 8) })

/-- MC_WRITE (R349). -/
def execMcWrite (q : Nat) (s : State) : Host.Outcome State Fault Refusal :=
  onFabric (fun s => descRow 0x42 mcCheck noWait mcStart s q) s
/-- RMT_WRITE (R355). -/
def execRmtWrite (q : Nat) (s : State) : Host.Outcome State Fault Refusal :=
  onFabric (fun s => descRow 0x50 (rmtCheck false) noWait (rmtStart 1) s q) s
/-- RMT_READ (R355). -/
def execRmtRead (q : Nat) (s : State) : Host.Outcome State Fault Refusal :=
  onFabric (fun s => descRow 0x51 (rmtCheck true) noWait (rmtStart 0) s q) s
/-- RMT_ATOMIC (R355). -/
def execRmtAtomic (q : Nat) (s : State) : Host.Outcome State Fault Refusal :=
  onFabric (fun s => descRow 0x52 atomCheck noWait atomStart s q) s

end Sys2Proof.Machine
end

