-- ==== Sys2Proof/Machine/Marker.lean ====
section
/-!
DEFINITION. Beat markers (R46 to R49, R52): what a port has heard, the upstream, steps of the count and what they cancel (R54).
-/

namespace Sys2Proof.Machine

/-- What port `p` has heard of its neighbour's beat. -/
def pbGet (s : State) (p : Nat) : PortBeat := tblGet (fun _ => PortBeat.init) s.beat.ports p
/-- Sets what port `p` has heard. -/
def pbPut (s : State) (p : Nat) (b : PortBeat) : State :=
  { s with beat := { s.beat with ports := tblSet (fun _ => PortBeat.init) s.beat.ports p b } }
/-- BEAT_LINK_DELAY_p. -/
def linkDelay (s : State) (p : Nat) : Nat := (tblGet (fun _ => 0) s.beat.delay p).toNat

/-- Is a marker valid (Table 3-1)? One with the reserved period code is not, since no period in use becomes 7 (R44). -/
def Marker.valid (m : Marker) : Bool := m.hops != 15 && m.period != 7
/-- The HOPS that port `p` offers an upstream, if its marker may be used as one (R47) and came within the last beat (R48). -/
def offered (s : State) (p : Nat) : Option Nat :=
  match (pbGet s p).marker with
  | some m => if m.valid = true ∧ m.hops.toNat < 14 ∧ (pbGet s p).silent = 0 then some m.hops.toNat else none
  | none => none
/-- The HOPS in the valid markers of the port that is followed, if they go on coming (R48). -/
def upstreamHops (s : State) : Option Nat :=
  let b := pbGet s s.beat.upstream.toNat
  match b.marker with
  | some m => if m.valid = true ∧ b.silent = 0 then some m.hops.toNat else none
  | none => none
/-- The port that a chip would choose as its upstream (R48). (DEDUCED, log entry 75) -/
def bestUpstream (s : State) : Option Nat :=
  if s.beat.upFixed then (if (offered s s.beat.upPort.toNat).isSome then some s.beat.upPort.toNat else none)
  else (List.range (portsOf s)).foldl (fun b p =>
    match offered s p, b with
    | none, _ => b
    | some _, none => some p
    | some h, some q => match offered s q with
      | some g => if h < g then some p else b
      | none => some p) none
/-- The neighbour's beat number, once BEAT_FULL has come. -/
def heard (s : State) (p : Nat) : Option W64 := if (pbGet s p).parts = 15 then some (pbGet s p).full else none

/-- Units of 0.4 ns in a beat (R44). -/
def beatUnits (per : BitVec 3) : Nat := 640 * 2 ^ per.toNat
/-- The neighbour's count and sub-beat phase when its last marker arrived, with the period: the marker's PHASE is older by the link
delay (R49). -/
def upTime (s : State) (p : Nat) : Option (W64 × Nat × BitVec 3) :=
  match heard s p, (pbGet s p).marker with
  | some n, some m =>
    let t := m.phase.toNat + linkDelay s p
    some (n + BitVec.ofNat 64 (t / beatUnits m.period), t % beatUnits m.period, m.period)
  | _, _ => none
/-- What the local beat is ahead of the neighbour's, in units of 0.4 ns (R49). -/
def phaseError (s : State) (n : W64) (ph : Nat) : Int :=
  (s.beat.now - n).toInt * beatUnits s.beat.period + (s.beat.phase.toNat : Int) - ph

/-- A cancelled event is counted and recorded (R54): the record names it with the BLOCK code of its unit. -/
def cancelNote (s : State) (what sub : Nat) : State :=
  record { s with beat := { s.beat with cancel := satInc s.beat.cancel } } 5 0 1 0xFF 0 (evDetail s .beat what sub 0)
/-- The armed circuits are cancelled. -/
def cancelCircuits (s : State) : State :=
  each ((List.range 256).filter (fun n => (cktGet s n).st == 1)) s (fun s n => cancelNote (cktPut s n Ckt.free) n 8)
/-- The armed bank switch is cancelled. -/
def cancelSwitch (s : State) : State := if s.rt.armed then cancelNote { s with rt := { s.rt with armed := false } } 0 7 else s
/-- The armed phase hints are cancelled. -/
def cancelHints (s : State) : State :=
  let gone := s.pwr.hints.filter (fun h => !h.on)
  each gone { s with pwr := { s.pwr with hints := s.pwr.hints.filter (fun h => h.on) } } (fun s h => cancelNote s h.phase 12)
/-- The count steps to `n` at period code `per` (R54): lease and reclaim deadlines keep what they had left, sheaf calibrations
their age, hints under way their rest; ARMED circuits, the armed bank switch and armed hints are cancelled.
(DEDUCED, log entry 77) -/
def stepCount (s : State) (n : W64) (per : BitVec 3) : State :=
  let d := n - s.beat.now
  let s := cancelHints (cancelSwitch (cancelCircuits s))
  { s with beat := { s.beat with now := n, period := per },
           lease := { s.lease with expiry := if s.lease.st = 1 then s.lease.expiry + d else s.lease.expiry,
                                   armedD := if s.lease.phase = 1 then s.lease.armedD + d else s.lease.armedD },
           shf := { s.shf with sheaves := s.shf.sheaves.map (fun x =>
             (x.1, { x.2 with aged := x.2.aged + (s.beat.now - x.2.since).toNat * beatUnits s.beat.period, since := n })) },
           pwr := { s.pwr with hints := s.pwr.hints.map (fun h => { h with start := h.start + d }) } }

/-- The HOPS of this chip's own markers (R46, R47). -/
def ownHops (s : State) : BitVec 4 :=
  match s.beat.st with
  | .master => 0
  | .locked =>
    if s.beat.upValid then
      match offered s s.beat.upstream.toNat with
      | some h => BitVec.ofNat 4 (h + 1)
      | none => 15
    else 15
  | _ => 15
/-- BEAT_STATUS.HOPS follows the state. -/
def setHops (s : State) : State := { s with beat := { s.beat with hops := ownHops s } }
/-- The chip follows port `p`. (DESIGN CHOICE, log entry 159) -/
def follow (s : State) (p : Nat) : State :=
  let s' := { s with beat := { s.beat with upstream := BitVec.ofNat 6 p, upValid := true } }
  if s.beat.upstream.toNat = p then s' else event s' .beat 5 p
/-- The chip takes count, phase and period of port `p` in one step (R52, R54). -/
def takeCount (s : State) (p : Nat) : State :=
  match upTime s p with
  | some (n, ph, per) =>
    let s := stepCount s n per
    { s with beat := { s.beat with phase := BitVec.ofNat 16 ph, offset := 0 } }
  | none => s
/-- ACQUIRING takes the count, the phase and the period of port `p` (R52). -/
def acquire (s : State) (p : Nat) : State :=
  if (upTime s p).isSome then
    let s := follow s p
    takeCount { s with beat := { s.beat with st := .acquiring, acqLen := 0 } } p
  else s
/-- Are two counts within one beat of each other? -/
def withinOne (a b : W64) : Bool := a == b || a == b + 1 || b == a + 1
/-- Is a phase error within 5 ns? -/
def lockable (o : W32) : Bool := decide (o.toInt.natAbs ≤ 12)
/-- HOLDOVER meets a usable upstream `p`: the local beat slews to it, and is LOCKED once it is near enough (R52).
(DESIGN CHOICE, log entry 157) -/
def rejoin (s : State) (p : Nat) : State :=
  match upTime s p with
  | none => s
  | some (n, ph, _) =>
    let s := follow s p
    if withinOne n s.beat.now then
      let s := { s with beat := { s.beat with offset := BitVec.ofInt 32 (phaseError s n ph) } }
      if lockable s.beat.offset then { s with beat := { s.beat with st := .locked } } else s
    else event { s with beat := { s.beat with st := .conflict } } .beat 3 p
/-- The phase error against the port that is followed (BEAT_OFFSET, R49). -/
def trackOffset (s : State) (p : Nat) : State :=
  match upTime s p with
  | some (n, ph, _) =>
    if (s.beat.st = .locked ∨ s.beat.st = .acquiring) ∧ s.beat.upstream.toNat = p ∧ (offered s p).isSome = true then
      { s with beat := { s.beat with offset := BitVec.ofInt 32 (phaseError s n ph) } }
    else s
  | none => s

/-- What a marker makes of the state of the beat (R48, R52): a count and a phase are taken as the marker of the port they come from
arrives. (DEDUCED, log entry 73) -/
def markerState (s : State) (p : Nat) : State :=
  match s.beat.st with
  | .unsynced => if bestUpstream s = some p then acquire s p else s
  | .holdover => if bestUpstream s = some p then rejoin s p else s
  | .acquiring => s
  | .locked =>
    if s.beat.upstream.toNat = p then
      (if (offered s p).isSome then { s with beat := { s.beat with upValid := true } } else s)
    else
      match bestUpstream s with
      | none => s
      | some q =>
        match offered s q, upstreamHops s with
        | some h, some g => if s.beat.upValid = false ∨ s.beat.upFixed = true ∨ h + 2 ≤ g then follow s q else s
        | some _, none => if s.beat.upValid = false ∨ s.beat.upFixed = true then follow s q else s
        | none, _ => s
  | _ => s

/-- A marker arrives on port `p` (R49): the neighbour's number is extended by BEAT_LO. -/
def markerRx (s : State) (p : Nat) (m : Marker) : State :=
  let b := pbGet s p
  let adv := (m.lo.toNat + 32 - b.full.toNat % 32) % 32
  let s := pbPut s p { b with marker := some m, fresh := b.fresh || m.valid, silent := if m.valid then 0 else b.silent, full := b.full + BitVec.ofNat 64 adv }
  let s := if m.valid then { s with beat := { s.beat with seen := true, unseen := 0 } } else s
  setHops (trackOffset (markerState s p) p)
/-- Part `i` of BEAT_FULL arrives on port `p` (R297). -/
def beatFullRx (s : State) (p i : Nat) (v : W16) : State :=
  if 4 ≤ i then s
  else
    let b := pbGet s p
    pbPut s p { b with full := setFld b.full (16 * i) 16 v.toNat, parts := putBit b.parts i true }
/-- The marker in a flit. -/
def markerOf (w : W32) : Marker :=
  ⟨BitVec.ofNat 5 (fld w 0 5), BitVec.ofNat 3 (fld w 5 3), BitVec.ofNat 16 (fld w 8 16), BitVec.ofNat 4 (fld w 24 4), BitVec.ofNat 4 (fld w 28 4)⟩
/-- The word of a marker. -/
def Marker.word (m : Marker) : W32 :=
  BitVec.ofNat 32 (m.lo.toNat + m.period.toNat * 2 ^ 5 + m.phase.toNat * 2 ^ 8 + m.hops.toNat * 2 ^ 24 + m.pace.toNat * 2 ^ 28)
/-- A port goes down: nothing is heard from it any more. -/
def forgetBeat (s : State) (p : Nat) : State := pbPut s p PortBeat.init

end Sys2Proof.Machine
end

