-- ==== Sys2Proof/Machine/Mirror.lean ====
section
/-!
DEFINITION. Mirror entries and their commands, failure domains, the mirror sender (R401 to R407, R420).
-/

namespace Sys2Proof.Machine

/-- CMD_ERR of FAB_MIR_EVENTS, naming an entry. -/
def mirCmdErr (s : State) (n : Nat) : State := event s .mir 5 n

/-! FAB_MIR_n (Table 21-10). -/

/-- The reserved bits of 8-byte word `w` of an entry. (DEDUCED, log entry 99) -/
def mirReserved (w : Nat) (v : W64) : Bool :=
  if w = 0 then fld v 5 11 != 0 || fld v 48 16 != 0
  else if w = 1 then fld v 48 16 != 0
  else if w = 2 then fld v 41 23 != 0
  else if w = 3 ∨ w = 4 then fld v 48 16 != 0
  else decide (6 ≤ w) && v != 0
/-- An entry with 8-byte word `w` written, VALID apart. -/
def mirWith (m : Mirror) (w : Nat) (v : W64) : Mirror :=
  let m := { m with extra := putBit m.extra w (mirReserved w v) }
  if w = 0 then { m with rank := v.getLsbD 1, partner := BitVec.ofNat 16 (fld v 16 16), pfdom := BitVec.ofNat 16 (fld v 32 16) }
  else if w = 1 then { m with lbase := fld v 0 48 }
  else if w = 2 then { m with size := fld v 0 41 }
  else if w = 3 then { m with pbase := fld v 0 48 }
  else if w = 4 then { m with cbase := fld v 0 48 }
  else m
/-- Do two entries hold the same fields? -/
def mirSame (a b : Mirror) : Bool :=
  a.rank == b.rank && a.partner == b.partner && a.pfdom == b.pfdom && a.lbase == b.lbase && a.size == b.size && a.pbase == b.pbase
    && a.cbase == b.cbase
/-- Is the partner in the own failure domain? -/
def sameDomain (s : State) (m : Mirror) : Bool := m.pfdom == s.mir.fdom
/-- May entry `n` become VALID with the fields of `m` (R402)? -/
def mirAllowed (s : State) (n : Nat) (m : Mirror) : Bool :=
  s.mir.fdom != 0 && m.pfdom != 0 && !sameDomain s m && s.rt.slice != 0 && m.size != 0 && m.size % 4096 == 0 && m.lbase % 4096 == 0
    && m.pbase % 4096 == 0 && m.cbase % 64 == 0 && hbmPop s m.lbase m.size
    && !(List.range 64).any (fun k =>
          let o := mirGet s k
          k != n && o.valid && decide (o.lbase < m.lbase + m.size) && decide (m.lbase < o.lbase + o.size))
    && m.extra == 0
/-- The refusal of R402. -/
def mirRefuse (s : State) (n : Nat) (m : Mirror) : State :=
  mirCmdErr (if sameDomain s m then event s .mir 4 n else s) n
/-- An entry goes OFF: what it had to send is forgotten. -/
def mirOff (s : State) (n : Nat) : State :=
  stopCopies (dropRanges (mirPut s n { mirGet s n with valid := false, st := 0 }) n) n
/-- The whole range is copied to the partner in ascending 4 KiB writes (Table 21-1). -/
def resync (s : State) (n : Nat) : State :=
  let m := mirGet s n
  mirOp (mirPut s n { m with valid := true, st := 1 }) n (.resync n) 72 6 [(m.pbase, m.size, m.lbase)] []
/-- A write of 8-byte word `w` of entry `n`. -/
def mirWrite (n w : Nat) (v : W64) (s : State) : State :=
  if 64 ≤ n ∨ 8 ≤ w then s
  else
    let m := mirGet s n
    let m' := mirWith m w v
    let valid := if w = 0 then v.getLsbD 0 else m.valid
    if m.valid then
      if !mirSame m m' then mirCmdErr s n
      else if valid then s
      else if m.st = 4 then mirCmdErr s n
      else mirOff s n
    else if valid then
      if mirAllowed s n m' then resync (mirPut s n m') n else mirRefuse s n m'
    else mirPut s n m'

/-! Commands (Table 21-9). -/

/-- FAB_MIR_CMD REBUILD: the entry becomes VALID and the partner's commit record is read (R420). -/
def rebuild (n : Nat) (s : State) : State :=
  let m := mirGet s n
  if 64 ≤ n then s
  else if m.valid then mirCmdErr s n
  else if !mirAllowed s n m then mirRefuse s n m
  else mirOp (mirPut s n { m with valid := true, st := 4 }) n (.rebRecord n) 73 0 [(m.cbase, 64, 0)] []
/-- FAB_MIR_CMD RESYNC. -/
def resyncCmd (n : Nat) (s : State) : State :=
  if 64 ≤ n then s else if (mirGet s n).st = 3 then resync s n else mirCmdErr s n
/-- FAB_FDOM, written through a management transport (R401). -/
def fdomWrite (path : RegPath) (v : W32) (s : State) : State :=
  if path ≠ .mgmt then s
  else if (List.range 64).any (fun n => (mirGet s n).valid) then mirCmdErr s 0
  else { s with mir := { s.mir with fdom := BitVec.ofNat 16 (fld v 0 16) } }

/-! The mirror sender (R403 to R405). -/

/-- Is range `r` behind an earlier pending range of its entry with a byte in common (R404)? -/
def behind (l : List MRange) (r : MRange) : Bool :=
  l.any (fun x => decide (x.num < r.num) && x.ent == r.ent && decide (x.addr < r.addr + r.data.length)
    && decide (r.addr < x.addr + x.data.length))
/-- Pending range `k` is sent, unless it waits behind another or an outstanding mirror write shares a byte with it. -/
def rangeSend (k : Nat) (s : State) : State :=
  match s.mir.ranges.find? (fun r => r.num == k && !r.sent) with
  | none => s
  | some r =>
    let m := mirGet s r.ent
    if behind s.mir.ranges r || (!m.rank && mirrorClash s m.partner (m.pbase + (r.addr - m.lbase)) r.data.length) then s
    else
      let s := { s with mir := { s.mir with ranges := s.mir.ranges.map (fun x => if x.num = k then { x with sent := true } else x) } }
      mirOp s r.ent (.range r.ent k) 72 6 [(m.pbase + (r.addr - m.lbase), r.data.length, r.addr)] r.data

/-! The rows of the table. -/

/-- FAB_MIR_WRITE (R402). -/
def execFabMirWrite (n w : Nat) (v : W64) (s : State) : Host.Outcome State Fault Refusal := onFabric (fwOnly (mirWrite n w v)) s
/-- FAB_FDOM_WRITE (R401). -/
def execFabFdomWrite (path : RegPath) (v : W32) (s : State) : Host.Outcome State Fault Refusal := run s (fwOnly (fdomWrite path v))
/-- REBUILD (R420). -/
def execRebuild (n : Nat) (s : State) : Host.Outcome State Fault Refusal := onFabric (fwOnly (rebuild n)) s
/-- MIR_RESYNC (R406). -/
def execMirResync (n : Nat) (s : State) : Host.Outcome State Fault Refusal := onFabric (fwOnly (resyncCmd n)) s
/-- MIRROR_SEND (R404). -/
def execMirrorSend (k : Nat) (s : State) : Host.Outcome State Fault Refusal := onFabric (rangeSend k) s

end Sys2Proof.Machine
end

