-- ==== Sys2Proof/Machine/Cal.lean ====
section
/-!
DEFINITION. The calibration store (R22, R477 to R483), CAL_WRITE, and the end of a descriptor's read of host memory (R395).
-/

namespace Sys2Proof.Machine

/-- A byte of the flash; the inventory record fills its last 1 MiB. -/
def flashGet (s : State) (a : Nat) : Byte :=
  if 0x03F00000 ≤ a ∧ a < 0x04000000 then Config.invByte s.inv.seqn.toNat a else tblGet Config.flashByte s.flash.cells a
/-- `n` bytes of the flash from `a` up. -/
def flashRead (s : State) (a n : Nat) : List Byte := (List.range n).map (fun i => flashGet s (a + i))
/-- Programs bytes into the flash. -/
def flashWrite (s : State) (a : Nat) (bs : List Byte) : State :=
  let put (t : Tbl Byte) : Tbl Byte := (List.range bs.length).foldl (fun t i => tblSet Config.flashByte t (a + i) (bs.getD i 0)) t
  { s with flash := { s.flash with cells := put s.flash.cells } }
/-- Bytes of the flash that hold no known contents. -/
def flashForget (s : State) (a n : Nat) : State :=
  flashWrite { s with free := s.free + 1 } a ((List.range n).map (fun i => Config.freeByte (s.free + 1) (a + i)))
/-- Where the store begins. -/
def storeBase : Nat := 0x400000

/-- A section of a store image (Table 24-7): ID, VER, OFFSET, LEN. -/
def calSections (l : List Byte) : List (Nat × Nat × Nat × Nat) :=
  (List.range (leAt l 12 4)).map (fun i => (leAt l (64 + 16 * i) 2, leAt l (66 + 16 * i) 2, leAt l (68 + 16 * i) 4, leAt l (72 + 16 * i) 4))
/-- Is a store image present and valid (R477)? -/
def calImageOk (l : List Byte) : Bool :=
  let n := leAt l 8 4
  let secs := calSections l
  leAt l 0 4 == 0x4C41434B && leAt l 4 4 == 1 && n % 4096 == 0 && decide (4096 ≤ n ∧ n ≤ 0x03B00000)
    && decide (1 ≤ leAt l 12 4 ∧ leAt l 12 4 ≤ 32) && leAt l 48 16 == 0 && leAt l (64 + 16 * secs.length) (4096 - 64 - 16 * secs.length) == 0
    && (List.range secs.length).all (fun i =>
      let x := secs.getD i (0, 0, 0, 0)
      leAt l (76 + 16 * i) 4 == 0 && decide (x.2.2.1 + x.2.2.2 ≤ n)
        && (List.range i).all (fun j =>
          let y := secs.getD j (0, 0, 0, 0)
          decide (x.2.2.1 + x.2.2.2 ≤ y.2.2.1) || decide (y.2.2.1 + y.2.2.2 ≤ x.2.2.1)))
    && sha256 (l.take 16 ++ leBytes 32 0 ++ (l.drop 48).take (n - 48)) == (l.drop 16).take 32
/-- The image that the flash holds, if the store is present and valid. -/
def storeImage (s : State) : Option (List Byte) :=
  let n := leNat (flashRead s (storeBase + 8) 4)
  if s.flash.bad || decide (0x03B00000 < n) then none
  else
    let l := flashRead s storeBase n
    if calImageOk l then some l else none

/-! CAL_WRITE (R481, R482). -/

/-- SRC_HOST of a CAL_WRITE. -/
def cwHost (d : List Byte) : Bool := dByte d 40 == 1
/-- The check of CAL_WRITE. -/
def calCheck (_ : State) (t : QTab) (d : List Byte) : DCheck :=
  let n := dLen d
  let r := if cwHost d then ⟨true, false, dNat d 32 8, n, false⟩ else hbmRange (dNat d 32 8) n false
  ⟨commonForm d false && decide (dByte d 40 < 2) && dZero d 41 64 && n % 4096 == 0, [r],
    (if 0x03B00000 < n then [stLength] else []) ++ (if n ≠ 0 ∧ t.privC = false then [stProt] else [])⟩
/-- A second CAL_WRITE waits. -/
def calWaits (s : State) (d : List Byte) : Bool := dLen d != 0 && s.hif.started.any (fun x => dOp x.desc == 0x60)
/-- The source has been read: a good image is programmed, its header sector erased first. -/
def calGot (s : State) (k : Nat) (d : List Byte) (bs : List Byte) : State :=
  if calImageOk bs && leAt bs 8 4 == dLen d then
    let s := flashForget s storeBase bs.length
    stMod { s with flash := { s.flash with bad := true, writing := some (k, bs) } } k (fun x => { x with wait := .flash })
  else complete s k stMalformed 0
/-- CAL_WRITE acts. (DEDUCED, log entry 122) -/
def calAct (s : State) (k : Nat) (d : List Byte) : State :=
  if dLen d = 0 then complete s k stDone 0
  else if cwHost d then stMod s k (fun x => { x with wait := .hostRead })
  else
    let ((m, bs), s) := fetchBytes s (dNat d 32 8) (dLen d)
    if !m.codes.isEmpty then completeMet s k m 0 else calGot s k d bs
/-- The programming ends: the read-back is good, or the store stays invalid. -/
def calDoneWrite (ok : Bool) (s : State) : State :=
  match s.flash.writing with
  | none => s
  | some (k, bs) =>
    let s := { s with flash := { s.flash with writing := none } }
    if ok then
      let s := flashWrite s storeBase bs
      complete (event { s with flash := { s.flash with bad := false } } .cal 2) k stDone 0
    else complete (event s .cal 3) k stData 0

/-! The answer of a read of host memory (R395). -/

/-- A started descriptor's read of host memory returns. -/
def hostReturn (k : Nat) (hv : HostView) (s : State) : State :=
  match stGet s k with
  | none => s
  | some d =>
    if d.wait ≠ .hostRead then s
    else if hv.fail ≠ .none then complete (hostDmaErr s (d.q.getD 0) (hostStatus hv).toNat) k (hostStatus hv) 0
    else
      let op := dOp d.desc
      let bs := hostBytes hv (dNat d.desc 32 8) (dLen d.desc)
      if op = 0x01 then copyWrite s k d.desc .none bs
      else if op = 0x10 then loadWrite s k d.desc .none bs
      else calGot s k d.desc bs
/-- A read of host memory has not been answered in time: the source read of descriptor `k`, or a fetch of queue `q` (R381). -/
def hostTimeout (q : Nat) (k : Option Nat) (s : State) : State :=
  match k with
  | some k => hostReturn k ⟨[], .timeout⟩ s
  | none => if (quGet s q).tab.hbm then s else fetchReturn q ⟨[], .timeout⟩ s

/-! The rows of the table. -/

/-- CAL_WRITE (R481). -/
def execCalWrite (q : Nat) (s : State) : Host.Outcome State Fault Refusal := run s (fun s => descRow 0x60 calCheck calWaits calAct s q)
/-- CAL_WRITE_DONE (R481). -/
def execCalWriteDone (flashOk : Bool) (s : State) : Host.Outcome State Fault Refusal := run s (calDoneWrite flashOk)
/-- HOST_READ_RETURN (R395). -/
def execHostReadReturn (k : Nat) (hv : HostView) (s : State) : Host.Outcome State Fault Refusal := onFabric (hostReturn k hv) s
/-- COMPLETION_TIMEOUT (R381, R395). -/
def execCompletionTimeout (q : Nat) (k : Option Nat) (s : State) : Host.Outcome State Fault Refusal := onFabric (hostTimeout q k) s

end Sys2Proof.Machine
end

