-- ==== Sys2Proof/Machine/Link.lean ====
section
/-!
DEFINITION. Aqoux links (chapter 16): flits, lanes and retry, packets on virtual channels, training, peers and port hold.
-/

namespace Sys2Proof.Machine

/-! The optics of a port as the link sees them (R240, R242, R243). -/

/-- The key of a ring. -/
def ringKey : RingId → Nat
  | .drop p k => 1024 * p + k
  | .modulator p k => 1024 * p + 16 + k
  | .glume d g => 65536 + 256 * d + g
/-- A ring loop. -/
def loopGet (s : State) (r : RingId) : Ring := tblGet (fun _ => Ring.init) s.optics.rings (ringKey r)
/-- Sets a ring loop. -/
def loopPut (s : State) (r : RingId) (x : Ring) : State :=
  { s with optics := { s.optics with rings := tblSet (fun _ => Ring.init) s.optics.rings (ringKey r) x } }
/-- The optics of port `p`. -/
def optGet (s : State) (p : Nat) : OptPort := tblGet (fun _ => OptPort.init) s.optics.ports p
/-- Sets the optics of port `p`. -/
def optPut (s : State) (p : Nat) (x : OptPort) : State :=
  { s with optics := { s.optics with ports := tblSet (fun _ => OptPort.init) s.optics.ports p x } }
/-- Are the rings of every lane in use of port `p` LOCKED? -/
def ringsLocked (s : State) (p : Nat) : Bool :=
  (optGet s p).txMap.all (fun k => (loopGet s (.modulator p k)).st == .locked)
    && (optGet s p).rxMap.all (fun k => (loopGet s (RingId.drop p k)).st == .locked)
/-- The ports of bypass switch `k` (R19). -/
def switchPorts (k : Nat) : List Nat := [8 * (k / 3) + 2 * (k % 3), 8 * (k / 3) + 2 * (k % 3) + 1]
/-- Is the bypass switch of port `p` moving? -/
def switchMoving (s : State) (p : Nat) : Bool :=
  (List.range 12).any (fun k => (switchPorts k).contains p && s.board.bypMoving.getLsbD k)
/-- Is the bypass switch of port `p` at rest in bypass (R18)? -/
def bypassed (s : State) (p : Nat) : Bool :=
  (List.range 12).any (fun k => (switchPorts k).contains p && s.board.bypState.getLsbD k && !s.board.bypMoving.getLsbD k)
/-- The other port of a bypass switch: its transmitter is the one that loops to this port's receiver in bypass (R18, R19). -/
def partnerPort (p : Nat) : Nat := if p % 2 = 0 then p + 1 else p - 1
/-- A DOWN port whose rings are LOCKED starts training (Table 16-8), unless a pass of its margin test runs, its bypass switch is moving, or its
site is lost (R15). -/
def tryTrain (s : State) (p : Nat) : State :=
  let x := portGet s p
  if x.st == .down && decide (p < portsOf s) && ringsLocked s p && ((optGet s p).test.isNone || (optGet s p).again)
      && !switchMoving s p && !s.board.held && !s.ms.sitesLost.contains (4 + ioSite s (p / 8)) then portPut s p { x with st := .train } else s

/-! Packets as bytes (Table 16-4). -/

/-- The 32 bytes of a packet header. -/
def packetHeader (k : Packet) : List Byte :=
  [BitVec.ofNat 8 (k.ptype.toNat + 16 * b2n k.epoch + 32 * b2n k.mcast)] ++ leBytes 2 (k.slice.toNat + k.rflags.toNat * 4096)
    ++ [BitVec.ofNat 8 k.hops.toNat] ++ leBytes 2 k.age.toNat ++ leBytes 2 k.dst.toNat ++ leBytes 2 k.src.toNat
    ++ leBytes 6 k.offset.toNat ++ leBytes 2 (k.payload.length % 8192) ++ leBytes 2 k.tag.toNat
    ++ [k.status, BitVec.ofNat 8 (k.aop.toNat + 8 * b2n k.last)] ++ leBytes 2 k.stream.toNat ++ leBytes 8 k.aux.toNat
/-- LEN of a packet header. -/
def headerLen (l : List Byte) : Nat := leAt l 16 2 % 8192
/-- The packet that header and payload bytes spell. -/
def parsePacket (l : List Byte) : Packet :=
  let b (i : Nat) : Nat := leAt l i 1
  { ptype := BitVec.ofNat 4 (b 0), epoch := (b 0).testBit 4, mcast := (b 0).testBit 5, slice := BitVec.ofNat 12 (leAt l 1 2),
    rflags := BitVec.ofNat 4 (leAt l 1 2 / 4096), hops := BitVec.ofNat 5 (b 3), age := BitVec.ofNat 16 (leAt l 4 2),
    dst := BitVec.ofNat 16 (leAt l 6 2), src := BitVec.ofNat 16 (leAt l 8 2), offset := BitVec.ofNat 48 (leAt l 10 6),
    tag := BitVec.ofNat 16 (leAt l 18 2), status := BitVec.ofNat 8 (b 20), aop := BitVec.ofNat 3 (b 21), last := (b 21).testBit 3,
    stream := BitVec.ofNat 16 (leAt l 22 2), aux := BitVec.ofNat 64 (leAt l 24 8), payload := (l.drop 32).take (headerLen l) }
/-- A flit with nothing but its payload, virtual channel and start mark. -/
def bareFlit (v : Nat) (sop : Bool) (kind : Nat) (bs : List Byte) : Flit :=
  { beat := 0, seqn := 0, ack := 0, ackLane := 0, nak := false, vc := BitVec.ofNat 3 v, kind := BitVec.ofNat 2 kind, sop := sop,
    crVc := 0, crCount := 0, mtype := 0, index := 0, data := 0, payload := bs ++ List.replicate (240 - bs.length) 0 }
/-- The flits of a packet on a virtual channel (R301). -/
def flitsOf (v : Nat) (k : Packet) : List Flit :=
  let l := packetHeader k ++ k.payload
  (List.range (packetFlits k)).map (fun i => bareFlit v (i == 0) 1 ((l.drop (240 * i)).take 240))

/-- The 252 bytes of a flit that its CRC covers (Table 16-2); reserved bits are 0. (DEDUCED, log entry 158) -/
def flitBytes (f : Flit) : List Byte :=
  leBytes 4 f.beat.toNat
    ++ leBytes 8 (f.seqn.toNat + f.ack.toNat * 2 ^ 10 + f.ackLane.toNat * 2 ^ 20 + b2n f.nak * 2 ^ 23 + f.vc.toNat * 2 ^ 24
        + f.kind.toNat * 2 ^ 27 + b2n f.sop * 2 ^ 29 + f.crVc.toNat * 2 ^ 32 + f.crCount.toNat * 2 ^ 35 + f.mtype.toNat * 2 ^ 40
        + f.index.toNat * 2 ^ 44 + f.data.toNat * 2 ^ 48)
    ++ f.payload
/-- The CRC-32 of a flit (R295). (DEDUCED, log entry 158) -/
def flitCrc (f : Flit) : W32 := crc32 (flitBytes f)
/-- The 256 bytes of a flit. -/
def flitImage (f : Flit) : List Byte := flitBytes f ++ leBytes 4 (flitCrc f).toNat

/-! Peers (Table 16-3, R305). -/

/-- This package's identity on port `p`. -/
def ownId (s : State) (p : Nat) : PeerId := ⟨Config.serial, s.rt.chip, BitVec.ofNat 6 p, false⟩
/-- Part `i` of an identity. -/
def idPart (x : PeerId) (i : Nat) : W16 :=
  if i < 8 then BitVec.ofNat 16 (fld x.serial (16 * i) 16) else if i = 8 then x.chip
  else BitVec.ofNat 16 (x.port.toNat + 64 * b2n x.storage)
/-- The identity that ten received parts spell. -/
def peerFrom (t : Tbl Nat) : Option PeerId :=
  let g (i : Nat) : Nat := tblGet (fun _ => 0) t i
  if (List.range 10).any (fun i => g i == 0) then none
  else
    some ⟨BitVec.ofNat 128 ((List.range 8).foldl (fun n i => n + (g i - 1) * 2 ^ (16 * i)) 0), BitVec.ofNat 16 (g 8 - 1),
      BitVec.ofNat 6 (g 9 - 1), (g 9 - 1).testBit 6⟩

/-! A port goes down (R300). -/

/-- An own packet was discarded: its request, or its journal record, fails LINK_LOST. -/
def ownLost (s : State) (k : Packet) : State :=
  if k.src ≠ s.rt.chip then s
  else if k.ptype = 7 then journalLost s k.aux (k.offset.setWidth 32) stLink
  else if isReq k.ptype.toNat then
    match outFind s k.tag.toNat with
    | some o => settleOut s o stLink 0
    | none => s
  else s
/-- The packets of which flits were sent or are being sent, each once, with its number and its virtual channel. -/
def Port.sending (x : Port) : List (Nat × Nat × Packet) :=
  let l := x.lanes.flatMap (fun e => (e.2.unack ++ e.2.resend).map (fun f => (f.2.1, f.1.vc.toNat, f.2.2)))
    ++ x.vcs.filterMap (fun e => e.2.curPkt.map (fun c => (c.1, e.1, c.2.2)))
  l.foldl (fun r c => if r.any (fun y => y.1 == c.1) then r else r ++ [c]) []
/-- The packets that wait in the output queues, each with its virtual channel. -/
def Port.queued (x : Port) : List (Nat × Packet) := x.vcs.flatMap (fun e => (e.2.fwd ++ e.2.loc).map (fun c => (e.1, c.2)))
/-- The packets in the receive buffers, whole or in part, each with its virtual channel. -/
def Port.received (x : Port) : List (Nat × Packet) :=
  x.vcs.flatMap (fun e => (e.2.arr ++ (if e.2.rxLeft = 0 then [] else [parsePacket e.2.rxBuf])).map (fun k => (e.1, k)))
    ++ x.lanes.flatMap (fun l => (l.2.rxq.filter (fun f => f.sop)).map (fun f => (f.vc.toNat, parsePacket f.payload)))
/-- The state of a port that has gone down: peer, generation and counts stay. -/
def Port.cleared (x : Port) : Port :=
  { x with st := .down, parts := [], lanes := [], vcs := [], rot := 0, rxRot := 0, loopIn := [] }
/-- The entry of the circuit that leaves on port `p` and carries a packet, or entry 0. -/
def circuitOut (s : State) (p : Nat) (k : Packet) : Nat :=
  ((List.range 256).find? (fun n => let c := cktGet s n; c.st != 0 && c.out.toNat == p && c.carries k)).getD 0
/-- A discarded packet of a circuit (R342); one of this chip's own, which fails at once (R300), is only counted. -/
def cktLose (s : State) (n : Nat) (k : Packet) : State := if k.src = s.rt.chip then cktDropOwn s n else cktDrop s n k
/-- A port goes down: its buffers are discarded and counted, credits are restored, own operations fail, discarded packets of circuits
are dropped under R342, and circuits through it break (R300, R343). -/
def portDown (s : State) (p : Nat) : State :=
  let x := portGet s p
  if x.st == .down || decide (portsOf s ≤ p) then s
  else
    let s := event s .link 1 p
    let out := x.sending.map (fun c => (c.2.1, c.2.2)) ++ x.queued
    let got := x.received
    let s := portPut s p x.cleared
    let s := { s with link := { s.link with drops := satAdd s.link.drops (out.length + got.length) } }
    let s := each (out.map (fun c => c.2) ++ ((x.inj ++ x.stall).filter (fun i => i.o.isNone)).map (fun i => i.pkt)) s ownLost
    let s := each (out.filter (fun c => c.1 == 7)) s (fun s c => cktLose s (circuitOut s p c.2) c.2)
    let s := each (got.filter (fun c => c.1 == 7)) s (fun s c => cktDrop s ((cktFind s p c.2.slice c.2.src c.2.dst).getD 0) c.2)
    let s := cktPortLost s p
    let s := if reservedPort s p && p == fld s.shf.jrnlDest 0 6 then each s.shf.jout s (fun s j => journalLost s j.user j.pos stLink) else s
    let s := failParked s p (fun _ => true) stLink
    tryTrain (setHops (forgetBeat s p)) p

/-! Throttle (R329). -/

/-- The occupancy of a virtual channel. -/
def occupancy (s : State) (p v : Nat) : Nat := vcRoom v - (vcGet s p v).cred
/-- A port enters or leaves throttle for one of its request channels. -/
def throttleCheck (s : State) (p v : Nat) : State :=
  if v = 0 ∨ v = 1 ∨ v = 4 then
    let c := vcGet s p v
    if !c.throttled && decide (fld s.rt.thr 0 11 ≤ occupancy s p v) then event (vcPut s p v { c with throttled := true }) .rt 6 p v
    else if c.throttled && decide (occupancy s p v ≤ fld s.rt.thr 16 11) then vcPut s p v { c with throttled := false } else s
  else s

/-- The occupancies are compared with new limits. -/
def throttleAll (s : State) : State := each (List.range (portsOf s)) s (fun s p => each [0, 1, 4] s (fun s v => throttleCheck s p v))

/-! Sending (R293, R301 to R304, R328, R338). -/

/-- A lane of a port. -/
def Port.lane (x : Port) (l : Nat) : Lane := tblGet (fun _ => Lane.init) x.lanes l
/-- Sets a lane of a port. -/
def Port.setLane (x : Port) (l : Nat) (y : Lane) : Port := { x with lanes := tblSet (fun _ => Lane.init) x.lanes l y }
/-- Does a packet from input `inp` travel on circuit `n`, which leaves on port `p` and is ACTIVE? -/
def onCircuit (s : State) (p n inp : Nat) (k : Packet) : Bool :=
  let c := cktGet s n
  c.st == 2 && c.out.toNat == p && c.inp.toNat == inp && c.carries k
/-- Has VC7 of port `p` a flit ready for circuit `n`? -/
def circuitReady (s : State) (p n : Nat) : Bool :=
  let c := vcGet s p 7
  decide (0 < c.cred) && (match c.curPkt with
    | some (_, inp, k) => onCircuit s p n inp k
    | none => c.fwd.any (fun x => onCircuit s p n x.1 x.2) || c.loc.any (fun x => onCircuit s p n 0x7F x.2))
/-- Has virtual channel `v` of port `p` a flit ready and a credit? A circuit's flits leave only in its slots (R338). -/
def vcReady (s : State) (p v : Nat) : Bool :=
  let c := vcGet s p v
  v != 7 && decide (0 < c.cred) && (!c.cur.isEmpty || !c.fwd.isEmpty || !c.loc.isEmpty)
/-- The first of a list from turn `t` on that satisfies `f`, with its place. -/
def turn (l : List Nat) (t : Nat) (f : Nat → Bool) : Option (Nat × Nat) :=
  ((List.range l.length).map (fun i => (l.getD ((t + i) % l.length) 0, (t + i) % l.length))).find? (fun x => f x.1)

/-- AGE of a packet that leaves port `p` after `age` units of 0.4 ns at this chip (R326). -/
def agedBy (s : State) (p age : Nat) (k : Packet) : Nat := min 0xFFFF (k.age.toNat + cdiv (age + linkDelay s p) 160)
/-- May a packet of that age be sent on from port `p` (R326)? -/
def mayLeave (s : State) (p age : Nat) (k : Packet) : Bool := decide (agedBy s p age k < s.rt.ageLim.toNat) && decide (k.hops.toNat < 23)
/-- A packet is taken from the queues of virtual channel `v` of port `p` as `f` says and begins, aged and with its hop counted; one at its
limit is dropped (R326, on a circuit R342). -/
def beginPacket (s : State) (p v inp age : Nat) (k : Packet) (f : Vc → Vc) : State :=
  let x := portGet s p
  let c := f (x.vc v)
  if mayLeave s p age k then
    let k' := { k with age := BitVec.ofNat 16 (agedBy s p age k), hops := k.hops + 1 }
    portPut s p ({ x with nextNo := x.nextNo + 1 }.setVc v { c with cur := flitsOf v k', curPkt := some (x.nextNo, inp, k') })
  else
    let s := ageDrop (portPut s p (x.setVc v c))
    if v = 7 then cktDrop s (circuitOut s p k) k else s
/-- The forwarded packet whose input port is next in turn: the least from `rr` on, else the least of all. -/
def nextInput (l : List (Nat × Packet)) (rr : Nat) : Option (Nat × Packet) :=
  let least (l : List (Nat × Packet)) : Option (Nat × Packet) :=
    l.foldl (fun b x => match b with
      | none => some x
      | some y => if x.1 < y.1 then some x else b) none
  (least (l.filter (fun x => decide (rr ≤ x.1)))).or (least l)
/-- The next packet of a virtual channel begins (R328). -/
def startNext (s : State) (p v age : Nat) : State :=
  let c := vcGet s p v
  let local1 (r : Nat) (k : Packet) : State :=
    beginPacket s p v 0x7F age k (fun c => { c with loc := c.loc.erase (r, k), waited := 0 })
  match nextInput c.fwd c.rr, c.loc with
  | none, [] => s
  | none, (r, k) :: _ => local1 r k
  | some (i, k), [] => beginPacket s p v i age k (fun c => { c with fwd := c.fwd.erase (i, k), rr := i + 1 })
  | some (i, k), (r, q) :: _ =>
    if (if c.throttled && isReq q.ptype.toNat then 64 else fld s.rt.ctrl 4 4) ≤ c.waited then local1 r q
    else beginPacket s p v i age k (fun c => { c with fwd := c.fwd.erase (i, k), rr := i + 1, waited := c.waited + 1 })
/-- The next packet of circuit `n` begins on VC7. -/
def startCircuit (s : State) (p n age : Nat) : State :=
  let c := vcGet s p 7
  match c.fwd.find? (fun x => onCircuit s p n x.1 x.2), c.loc.find? (fun x => onCircuit s p n 0x7F x.2) with
  | some x, _ => beginPacket s p 7 x.1 age x.2 (fun c => { c with fwd := c.fwd.erase x })
  | none, some x => beginPacket s p 7 0x7F age x.2 (fun c => { c with loc := c.loc.erase x })
  | none, none => s
/-- The next flit of virtual channel `v`, with its packet's number and header; a credit is used. -/
def takeFlit (s : State) (p v : Nat) : Option (Flit × Nat × Packet) × State :=
  let c := vcGet s p v
  match c.cur, c.curPkt with
  | f :: t, some (no, _, k) =>
    let c := { c with cur := t, curPkt := if t.isEmpty then none else c.curPkt, cred := c.cred - 1 }
    (some (f, no, { k with payload := [] }), throttleCheck (vcPut s p v c) p v)
  | _, _ => (none, s)

/-- The slot entry at `phase` in the current beat (R338). (DEDUCED, log entry 80) -/
def slotAt (s : State) (phase : W16) : Nat := 8 * (s.beat.now.toNat % 64) + min 7 (phase.toNat * 8 / (640 * 2 ^ s.beat.period.toNat))
/-- The data flit that a port sends at a flit time, if any (R304); `age` is how long the packet that begins has been at this chip. -/
def pickFlit (s : State) (p : Nat) (phase : W16) (age : Nat) : Option (Flit × Nat × Packet) × State :=
  match slotOwner s p (slotAt s phase) with
  | some n =>
    if circuitReady s p n then takeFlit (if (vcGet s p 7).curPkt.isSome then s else startCircuit s p n age) p 7 else (none, s)
  | none =>
    let send (s : State) (v : Nat) : Option (Flit × Nat × Packet) × State :=
      takeFlit (if (vcGet s p v).curPkt.isSome then s else startNext s p v age) p v
    let x := portGet s p
    if vcReady s p 6 then send s 6
    else
      match turn [2, 3, 5] x.rrResp (vcReady s p), turn [0, 1, 4] x.rrReq (vcReady s p) with
      | some (v, i), _ => send (portPut s p { x with rrResp := i + 1 }) v
      | none, some (v, i) => send (portPut s p { x with rrReq := i + 1 }) v
      | none, none => (none, s)
/-- May a lane resend a flit now? In a slot that is reserved only flits of its circuit leave, and those of a circuit in use leave only
there (R304, R338). -/
def mayResend (s : State) (p : Nat) (phase : W16) (f : Flit × Nat × Packet) : Bool :=
  let mine (n : Nat) : Bool := f.1.vc == 7 && (cktGet s n).carries f.2.2
  match slotOwner s p (slotAt s phase) with
  | some n => mine n
  | none => !(List.range 256).any (fun n => (cktGet s n).st == 2 && (cktGet s n).out.toNat == p && mine n)

/-- The management messages that a port may send now: type, index, data; RXPOWER carries a fresh
measurement, a free value; at training BEAT_FULL carries the full number of the beat. (DESIGN CHOICE, log entry 62)
(DEDUCED, log entry 146) -/
def messages (s : State) (p : Nat) : List (Nat × Nat × Option W16) :=
  let x := portGet s p
  (optGet s p).rxMap.map (fun k => (1, k, none))
    ++ (if s.beat.now.toNat % 256 = 0 ∨ x.st = .train ∨ x.st = .ident
        then (List.range 4).map (fun i => (2, i, some (BitVec.ofNat 16 (fld s.beat.now (16 * i) 16)))) else [])
    ++ (if x.st = .train then [] else (List.range 10).map (fun i => (3, i, some (idPart (ownId s p) i))))

/-- The header that every flit of port `p` gets: marker, acknowledgement or NAK, returned credits, a management message. -/
def dressFlit (s : State) (p : Nat) (phase : W16) (f : Flit) : Flit × State :=
  let x := portGet s p
  let lanes := (optGet s p).rxLane
  let nak := lanes.find? (fun l => (x.lane l).nakDue)
  let a := nak.getD (lanes.getD (x.msg % max 1 lanes.length) 0)
  let la := x.lane a
  let cr := (List.range 8).foldl (fun b v => if (x.vc b).owed < (x.vc v).owed then v else b) 0
  let cn := min 31 (x.vc cr).owed
  let (m, s) := match messages s p with
    | [] => ((0, 0, (0 : W16)), s)
    | l =>
      match l.getD (x.msg % l.length) (0, 0, some 0) with
      | (t, i, some v) => ((t, i, v), s)
      | (t, i, none) =>
        let (w, s) := drawFree s
        let v : W16 := w.setWidth 16
        let o := optGet s p
        ((t, i, v), optPut s p { o with rx := tblSet (fun _ => 0) o.rx i v })
  let x := { x with msg := x.msg + 1 }
  let x := if nak.isSome then x.setLane a { la with nakDue := false, nakSent := true } else x
  let c := x.vc cr
  let x := x.setVc cr { c with owed := c.owed - cn }
  let mk : Marker := ⟨BitVec.ofNat 5 s.beat.now.toNat, s.beat.period, phase, s.beat.hops, s.pwr.own⟩
  ({ f with beat := mk.word, ack := if x.st = .train then 0 else la.rxExp - 1, ackLane := BitVec.ofNat 3 a, nak := nak.isSome,
            crVc := BitVec.ofNat 3 cr, crCount := BitVec.ofNat 5 cn, mtype := BitVec.ofNat 4 m.1, index := BitVec.ofNat 4 m.2.1,
            data := m.2.2 }, portPut s p x)

/-- A resend is counted (R298). -/
def countResend (x : Port) : Port := { x with retry := setFld x.retry 0 16 (min 65535 (fld x.retry 0 16 + 1)) }
/-- One bit of PRBS31, x³¹ + x²⁸ + 1. -/
def prbsStep (g : BitVec 31) : BitVec 31 := (g <<< 1) ||| BitVec.ofNat 31 (b2n (g.getLsbD 30 != g.getLsbD 27))
/-- A byte of PRBS31, its first bit least. -/
def prbsByte (g : BitVec 31) : Byte × BitVec 31 :=
  (List.range 8).foldl (fun r i => (putBit r.1 i (r.2.getLsbD 30), prbsStep r.2)) (0, g)
/-- `n` bytes of PRBS31. -/
def prbsFill (n : Nat) (g : BitVec 31) : List Byte × BitVec 31 :=
  (List.range n).foldl (fun r _ => let b := prbsByte r.2; (r.1 ++ [b.1], b.2)) ([], g)
/-- The training block of Table 16-9 on logical lane `lane` and channel `ch`, sent at time `stamp`; a lane's fill starts anywhere in its
sequence. (PRESUMED, log entry 78) -/
def trainFlit (s : State) (p lane ch : Nat) (stamp : W64) : Flit × State :=
  let x := portGet s p
  let la := x.lane lane
  let (g, s) := if la.prbs = 0 then (let (f, s) := drawFree s; (BitVec.ofNat 31 (f.toNat % (2 ^ 31 - 1) + 1), s)) else (la.prbs, s)
  let (fill, g) := prbsFill 218 g
  (bareFlit 0 false 2 (leBytes 4 0x5A3CC3A5 ++ [BitVec.ofNat 8 lane, BitVec.ofNat 8 ch] ++ leBytes 8 stamp.toNat ++ leBytes 8 la.echo.toNat ++ fill),
    portPut s p (x.setLane lane { la with prbs := g }))
/-- A flit leaves port `p` on a lane: into the fibre, or, with its switch in bypass, to the other port of the switch (R18). -/
def sendFlit (s : State) (p lane ch : Nat) (phase : W16) (f : Flit) : State :=
  let (f, s) := dressFlit s p phase f
  if bypassed s p then
    let y := portGet s (partnerPort p)
    portPut s (partnerPort p) { y with loopIn := y.loopIn ++ [(ch, f)] }
  else emit s (.flit p lane (flitImage f))

/-- A flit time of a logical lane (R298, R304), at `phase` of the beat. -/
def flitTime (p lane : Nat) (phase : W16) (age : Nat) (stamp : W64) (s : State) : State :=
  let x := portGet s p
  let o := optGet s p
  if portsOf s ≤ p ∨ o.txLane.contains lane = false ∨ x.st = .down then s
  else
    let s := { s with beat := { s.beat with phase := phase } }
    let ch := o.txMap.getD (o.txLane.idxOf lane) 0
    let send (s : State) (f : Flit) : State := sendFlit s p lane ch phase f
    if x.st = .train then
      let (f, s) := trainFlit s p lane ch stamp
      send s f
    else
      let la := x.lane lane
      let idle (s : State) : State := send s { bareFlit 0 false 0 [] with seqn := la.txSeq }
      if x.st ≠ .up then idle s
      else
        match la.resend with
        | f :: t =>
          if mayResend s p phase f then send (portPut s p (countResend (x.setLane lane { la with resend := t }))) f.1 else idle s
        | [] =>
          if o.txLane.getD x.rot 0 ≠ lane ∨ 512 ≤ la.unack.length then idle s
          else
            match pickFlit s p phase age with
            | (none, s) => idle s
            | (some (f, no, k), s) =>
              let f := { f with seqn := la.txSeq }
              let x := portGet s p
              let x := x.setLane lane { la with txSeq := la.txSeq + 1, unack := la.unack ++ [(f, no, k)] }
              send (portPut s p { x with rot := (x.rot + 1) % o.txLane.length }) f

/-! Receiving (R297 to R301). -/

/-- ACK and NAK act on the lane they name: acknowledged flits leave the retry buffer; NAK resends the rest. -/
def ackLane (la : Lane) (ack : BitVec 10) (nak : Bool) : Lane :=
  let hit (l : List (Flit × Nat × Packet)) : Bool := l.any (fun f => f.1.seqn == ack)
  let cut (l : List (Flit × Nat × Packet)) : List (Flit × Nat × Packet) :=
    if hit l then (l.dropWhile (fun f => f.1.seqn != ack)).drop 1 else l
  let keep := cut la.unack
  { la with unack := keep, resend := if nak then keep else if hit la.unack then la.resend.filter (fun f => keep.contains f) else la.resend }
/-- A flit was dropped on a lane: NAK is due at the first drop. -/
def dropFlit (la : Lane) : Lane := if la.nakSent then la else { la with nakDue := true }
/-- A flit in the order of the port goes into the buffer of its virtual channel; the packet it ends has arrived. -/
def bufferFlit (c : Vc) (f : Flit) : Vc :=
  let whole (c : Vc) : Vc :=
    if c.rxLeft ≠ 0 then c
    else
      let k := parsePacket c.rxBuf
      if (f.vc = 6 ∨ k.ptype.toNat < 9) ∧ headerLen c.rxBuf ≤ 4096 then { c with arr := c.arr ++ [k], rxBuf := [] }
      else { c with rxBuf := [], owed := c.owed + cdiv (32 + headerLen c.rxBuf) 240 }
  if f.sop then
    whole { c with rxBuf := f.payload, rxLeft := cdiv (32 + headerLen f.payload) 240 - 1, owed := c.owed + c.rxBuf.length / 240 }
  else if c.rxLeft = 0 then { c with owed := c.owed + 1 }
  else whole { c with rxBuf := c.rxBuf ++ f.payload, rxLeft := c.rxLeft - 1 }
/-- Accepted flits are taken in the order of the rotation over the lanes in use, at most `fuel` of them. -/
def restoreOrder (lanes : List Nat) : Nat → Port → Port
  | 0, x => x
  | fuel + 1, x =>
    let l := lanes.getD x.rxRot 0
    let la := x.lane l
    match la.rxq with
    | [] => x
    | f :: t =>
      let x := x.setLane l { la with rxq := t }
      let v := f.vc.toNat
      restoreOrder lanes fuel ({ x with rxRot := (x.rxRot + 1) % max 1 lanes.length }.setVc v (bufferFlit (x.vc v) f))

/-- A management message of a good flit (Table 16-3). -/
def messageRx (s : State) (p : Nat) (f : Flit) : State :=
  let i := f.index.toNat
  let x := portGet s p
  if f.mtype = 1 ∧ i < 9 then
    let o := optGet s p
    optPut s p { o with far := tblSet (fun _ => 0) o.far i (f.data.toNat + 1) }
  else if f.mtype = 2 then beatFullRx s p i f.data
  else if f.mtype = 3 ∧ i < 10 then
    match x.st, x.peer with
    | .ident, _ => portPut s p { x with parts := tblSet (fun _ => 0) x.parts i (f.data.toNat + 1) }
    | .self, _ => if i < 9 ∧ idPart (ownId s p) i ≠ f.data then portDown s p else s
    | .hold, some id => if idPart id i = f.data then s else portDown s p
    | .up, some id => if idPart id i = f.data then s else portDown s p
    | _, _ => s
  else s
/-- The header of a good flit: acknowledgement, credits, pace and marker. -/
def headerRx (s : State) (p lane : Nat) (f : Flit) : State :=
  let x := portGet s p
  let a := f.ackLane.toNat
  let x := x.setLane a (ackLane (x.lane a) f.ack f.nak)
  let v := f.crVc.toNat
  let c := x.vc v
  let s := throttleCheck (portPut s p (x.setVc v { c with cred := min (vcRoom v) (c.cred + f.crCount.toNat) })) p v
  let m := markerOf f.beat
  let b := pbGet s p
  let s := if x.st = .up then pbPut s p { b with pace := if b.pace.ult m.pace then m.pace else b.pace } else s
  if (optGet s p).rxLane.head? = some lane then markerRx s p m else s
/-- The body of a good flit. -/
def bodyRx (s : State) (p lane : Nat) (f : Flit) : State :=
  let x := portGet s p
  let la := x.lane lane
  if f.kind = 1 then
    if x.st = .up ∧ f.seqn = la.rxExp then
      let x := x.setLane lane { la with rxExp := la.rxExp + 1, nakDue := false, nakSent := false, rxq := la.rxq ++ [f] }
      portPut s p (restoreOrder (optGet s p).rxLane (x.lanes.foldl (fun n l => n + l.2.rxq.length) 0) x)
    else portPut s p (x.setLane lane (dropFlit la))
  else if f.kind = 0 ∧ x.st = .up ∧ f.seqn ≠ la.rxExp then portPut s p (x.setLane lane (dropFlit la))
  else s
/-- A codeword of RS(544,514) corrects up to 15 symbol errors (R299). (DEDUCED, log entry 158) -/
def uncorrectable (errors : Nat) : Bool := decide (15 < errors)
/-- A flit that failed its CRC is dropped (R298). -/
def badFlit (s : State) (p lane : Nat) : State :=
  let x := portGet s p
  if x.st = .up then portPut s p (x.setLane lane (dropFlit (x.lane lane))) else s
/-- With FEC on, each codeword that the decoder cannot correct is counted once, at the flit in which it begins.
(DEDUCED, log entry 158) -/
def countCodewords (s : State) (p : Nat) (cws : List (Nat × Bool)) : State :=
  let x := portGet s p
  let n := (cws.filter (fun c => uncorrectable c.1 && c.2)).length
  portPut s p { x with retry := setFld x.retry 16 16 (min 65535 (fld x.retry 16 16 + n)) }
/-- A training block: its timestamp is echoed in the next block that is sent on the lane (Table 16-9). -/
def trainBlockRx (s : State) (p lane : Nat) (f : Flit) : State :=
  let x := portGet s p
  if x.st ≠ .train ∨ leAt f.payload 0 4 ≠ 0x5A3CC3A5 then s
  else
    let s := portPut s p (x.setLane lane { x.lane lane with echo := BitVec.ofNat 64 (leAt f.payload 6 8) })
    if (optGet s p).rxLane.head? = some lane then markerRx s p (markerOf f.beat) else s
/-- A flit arrives on a logical lane with its CRC; with FEC on, `cws` are the codewords it overlaps: the symbol errors of each, and whether
it begins in this flit. -/
def flitIn (p lane : Nat) (f : Flit) (crc : W32) (cws : List (Nat × Bool)) (s : State) : State :=
  let x := portGet s p
  let fec := (optGet s p).fec
  let s := if fec then countCodewords s p cws else s
  if crc ≠ flitCrc f ∨ (fec && cws.any (fun c => uncorrectable c.1)) = true then badFlit s p lane
  else
    let s := messageRx s p f
    if (portGet s p).st ≠ x.st then s
    else if f.kind = 2 then trainBlockRx s p lane f
    else bodyRx (headerRx s p lane f) p lane f
/-- A flit arrives at `phase` of the beat. A port whose switch is in bypass hears only the other port of the switch (R18): it takes the
oldest flit under way on the lane's channel. -/
def flitRx (p lane : Nat) (f : Flit) (crc : W32) (cws : List (Nat × Bool)) (phase : W16) (s : State) : State :=
  let x := portGet s p
  let o := optGet s p
  if portsOf s ≤ p ∨ o.rxLane.contains lane = false ∨ x.st = .down then s
  else
    let s := { s with beat := { s.beat with phase := phase } }
    if bypassed s p then
      match x.loopIn.find? (fun c => c.1 == o.rxMap.getD (o.rxLane.idxOf lane) 0) with
      | none => s
      | some c => if c.2 = f then flitIn p lane f crc cws (portPut s p { x with loopIn := x.loopIn.erase c }) else s
    else flitIn p lane f crc cws s

/-! Training, identity, hold (R305, R306). -/

/-- Port `p` enters UP. -/
def enterUp (s : State) (p : Nat) : State := event (portPut s p { portGet s p with st := .up }) .link 2 p
/-- Training ends (R243, R305). (DEDUCED, log entry 146) -/
def trainEnd (p : Nat) (lanes : List Nat) (delay : W16) (good : Bool) (s : State) : State :=
  let x := portGet s p
  let o := optGet s p
  if portsOf s ≤ p ∨ x.st ≠ .train then s
  else
    let wrong := (List.range o.rxMap.length).filter (fun i => lanes.getD i (o.rxLane.getD i i) != o.rxLane.getD i i)
    let s := each wrong s (fun s i =>
      let k := o.rxMap.getD i 0
      let r := loopGet s (RingId.drop p k)
      let s := loopPut s (RingId.drop p k) { r with st := .sweep, narrow := true, full := 0, bad := 0 }
      event { s with optics := { s.optics with mismatch := satInc s.optics.mismatch } } .opt 1 p (o.rxLane.getD i i))
    if good && wrong.isEmpty then
      let s := optPut s p { o with again := false }
      portPut { s with beat := { s.beat with delay := tblSet (fun _ => 0) s.beat.delay p delay } } p
        { x with st := .ident, parts := [], txLanes := BitVec.ofNat 4 o.txMap.length, rxLanes := BitVec.ofNat 4 o.rxMap.length }
    else tryTrain (portPut (forgetBeat s p) p { x with st := .down }) p
/-- The peer exchange ends once every part has come; a port on hold whose peer is unchanged is in HOLD again (Table 16-11),
and one that is out of service for its margin test waits for the end of the test. (DEDUCED, log entry 79) -/
def identEnd (p : Nat) (s : State) : State :=
  let x := portGet s p
  if portsOf s ≤ p ∨ x.st ≠ .ident then s
  else
    match peerFrom x.parts with
    | none => s
    | some id =>
      if id.serial = Config.serial then portPut s p { x with st := .self }
      else if reservedPort s p ∨ x.peer = some id then
        (if x.onHold then portPut s p { x with st := .hold }
         else if (optGet s p).test.isSome then portPut s p { x with st := .down } else enterUp s p)
      else
        event (portPut s p { x with st := .hold, peer := some id, gen := x.gen + 1, passed := false, testFresh := false, onHold := true })
          .link 0 p
/-- RELEASE. -/
def release (p gen : Nat) (s : State) : State :=
  let x := portGet s p
  if portsOf s ≤ p then event s .link 6 p
  else if x.st = .hold ∧ gen = x.gen.toNat ∧ x.passed = true then enterUp (portPut s p { x with onHold := false }) p
  else event s .link 3 p
/-- HOLD: an UP port is put in HOLD, and circuits through it break (R343); one that a recovery test holds down comes back in HOLD
(Table 16-11). -/
def holdPort (p : Nat) (s : State) : State :=
  let x := portGet s p
  if portsOf s ≤ p then event s .link 6 p
  else if x.st = .up then cktPortLost (portPut s p { x with st := .hold, onHold := true }) p
  else if (optGet s p).test.isSome then portPut s p { x with onHold := true } else s
/-- RETRAIN. -/
def retrain (p : Nat) (s : State) : State := if portsOf s ≤ p then event s .link 6 p else portDown s p

/-! The rows of the table. -/

/-- FLIT_TX (R304). -/
def execFlitTx (p lane : Nat) (x : FlitTime) (s : State) : Host.Outcome State Fault Refusal :=
  onFabric (flitTime p lane x.phase x.age x.stamp) s
/-- FLIT_RX (R298). -/
def execFlitRx (p lane : Nat) (f : Flit) (x : FlitCheck) (s : State) : Host.Outcome State Fault Refusal :=
  onFabric (flitRx p lane f x.crc x.cws x.phase) s
/-- NAK_TIMER (R298): the expected flit has not come. -/
def execNakTimer (p lane : Nat) (s : State) : Host.Outcome State Fault Refusal :=
  run s (fun s =>
    let x := portGet s p
    let la := x.lane lane
    if x.st = .up ∧ la.nakSent = true then portPut s p (x.setLane lane { la with nakDue := true }) else s)
/-- Has a lane a data flit outstanding: unacknowledged at this sender, or, at this receiver, not yet come or behind one that has not? -/
def Lane.outstanding (l : Lane) : Bool := !l.unack.isEmpty || l.nakDue || l.nakSent || !l.rxq.isEmpty
/-- LINK_STALL_TIMEOUT (R300): a lane in one of the two directions has had a data flit outstanding for 100 µs. -/
def execLinkStallTimeout (p : Nat) (s : State) : Host.Outcome State Fault Refusal :=
  onFabric (fun s => if (portGet s p).lanes.any (fun l => l.2.outstanding) then portDown s p else s) s
/-- TRAIN_END (R305). -/
def execTrainEnd (p : Nat) (lanes : List Nat) (delay : W16) (good : Bool) (s : State) : Host.Outcome State Fault Refusal :=
  onFabric (trainEnd p lanes delay good) s
/-- IDENT_END (R305). -/
def execIdentEnd (p : Nat) (s : State) : Host.Outcome State Fault Refusal := onFabric (identEnd p) s
/-- RELEASE (R306). -/
def execRelease (p gen : Nat) (s : State) : Host.Outcome State Fault Refusal := onFabric (fwOnly (release p gen)) s
/-- HOLD (R305). -/
def execHold (p : Nat) (s : State) : Host.Outcome State Fault Refusal := onFabric (fwOnly (holdPort p)) s
/-- RETRAIN (R305). -/
def execRetrain (p : Nat) (s : State) : Host.Outcome State Fault Refusal := onFabric (fwOnly (retrain p)) s
/-- PEER_SILENT (R410): an UP port has carried only HOPS 15 markers for 64 beats while this chip is LOCKED. -/
def execPeerSilent (p : Nat) (s : State) : Host.Outcome State Fault Refusal :=
  run s (fun s =>
    let b := pbGet s p
    if portUp s p = true ∧ s.beat.st = .locked ∧ b.marker.isSome = true ∧ 64 ≤ b.silent then event s .mgt 5 p else s)

end Sys2Proof.Machine
end

