-- ==== Sys2Proof/Machine/Route.lean ====
section
/-!
DEFINITION. Forwarding, bank switches, caches and the routing registers (chapter 17).
-/

namespace Sys2Proof.Machine

/-! Forwarding (R317, R320, R326, R332, R341). -/

/-- A packet enters the output queue of a port. -/
def queueOut (s : State) (inp port vc : Nat) (k : Packet) : State :=
  let c := vcGet s port vc
  vcPut s port vc { c with fwd := c.fwd ++ [(inp, k)] }
/-- May the chip forward a packet of its slice and bank? None of slice 0 (R33). -/
def mayForward (s : State) (k : Packet) : Bool := k.slice != 0 && (bankOfEpoch s k.epoch).permits k.slice.toNat
/-- A packet on its circuit (R341). -/
def forwardCircuit (s : State) (p n : Nat) (k : Packet) : State :=
  let lost (s : State) : State := cktDrop s n k
  if fenced s k.src then lost (fenceDrop s)
  else if s.rt.ageLim.toNat ≤ k.age.toNat then lost (ageDrop s)
  else if !mayForward s k then lost (sliceDrop s)
  else queueOut s p (cktGet s n).out.toNat 7 k
/-- A multicast packet: delivered where this chip is a member, copied onto the branches of its group (R331, R332).
(DEDUCED, log entry 142) -/
def forwardMulticast (s : State) (p : Nat) (k : Packet) : State :=
  if k.ptype ≠ 1 ∨ fld k.dst 12 4 ≠ 0 then routeDrop s
  else
    let ((m, e), s) := groupLookup s (k.dst.toNat % 4096)
    if !m.codes.isEmpty || !groupOk e k.slice then sliceDrop s
    else
      let s := if leAt e 2 1 % 2 = 1 ∧ k.slice ≠ 0 ∧ k.slice = s.rt.slice then loopBack s k else s
      if !mayForward s k && !(groupBranches e).isEmpty then sliceDrop s
      else
        let (cut, s) := spread s (some p) e k (fun s port vc q => queueOut s p port vc q)
        each cut s (fun s c => ackTo s k c.1 (c.2 * 2 ^ 16))
/-- A packet for another chip that has arrived on virtual channel `v` of port `p` (R317). A stream type is never routed or forwarded (R302): it is dropped as one
that no route takes. (DEDUCED, log entry 148) -/
def forward (p v : Nat) (k : Packet) (s : State) : State :=
  if !portUp s p || reservedPort s p || !arrivedIn s p v k then s
  else
    let s1 := takeArrived s p v k
    if v = 7 then
      match cktFind s p k.slice k.src k.dst with
      | none => cktDrop s1 0 k
      | some n =>
        let c := cktGet s n
        if c.st = 3 then cktDrop s1 n k
        else if c.st = 2 ∧ c.out ≠ 0x7F then forwardCircuit s1 p n k else s
    else if k.ptype = 7 ∨ k.ptype = 8 then routeDrop s1
    else if !k.mcast && k.dst == s.rt.chip then s
    else if fenced s k.src then fenceDrop s1
    else if s.rt.ageLim.toNat ≤ k.age.toNat then ageDrop s1
    else if k.mcast then forwardMulticast s1 p k
    else if !mayForward s k then sliceDrop s1
    else
      match routeOf s1 (some p) k with
      | .send m vc q twice =>
        let port := pickPort s1 m vc q
        queueOut (noteTwice s1 port twice) p port vc q
      | .drop _ twice => dropRouted s1 twice
      | .deliver => s

/-- A management packet is taken by the management controller (R321). -/
def vc6Take (p : Nat) (s : State) : State :=
  if !portUp s p then s
  else
    match (vcGet s p 6).arr with
    | k :: _ => takeArrived s p 6 k
    | [] => s

/-- Every 64 ns the occupancies are sampled (R330). -/
def cmapSample (s : State) : State :=
  let occ := (List.range (8 * portsOf s)).foldl (fun t i =>
    let n := occupancy s (i / 8) (i % 8)
    if n = 0 then t else tblMod (fun _ => 0) t i (fun v => v + n)) s.rt.occ
  { s with rt := { s.rt with occ := occ, samples := s.rt.samples + 1 } }

/-! Banks (R316, R324). -/

/-- RT_ERR: a write or an arm was refused. -/
def rtErr (s : State) : State := event s .rt 0
/-- The masks of a bank. -/
def RBank.masks (b : RBank) : List W64 :=
  (List.range 6).map (fun i => b.torusPorts (i / 2) (i % 2)) ++ (List.range 8).map b.fieldPorts ++ (List.range 16).map b.gridPorts
/-- The check of R316. -/
def bankOk (s : State) (b : RBank) : Bool :=
  (List.range 64).all (fun p => decide ((b.masks.filter (fun m => m.getLsbD p)).length ≤ 1))
    && b.masks.all (fun m => (setBits 64 m.toNat).all (fun p => decide (p < portsOf s) && !reservedPort s p))
    && b.fieldPorts (chipBlock s.rt.chip) == 0 && b.gridPorts (chipField s.rt.chip) == 0
    && (List.range 24).all (fun i => fld b.dir (2 * i) 2 != 3) && fld b.dir 48 16 == 0 && fld b.date 6 26 == 0
/-- The beat period in units of 0.4 ns. -/
def periodUnits (s : State) : Nat := 640 * 2 ^ s.beat.period.toNat
/-- Does FAB_RT_DRAIN outlast a packet's life by two beats? -/
def drainLong (s : State) : Bool := decide (s.rt.ageLim.toNat * 160 + 2 * periodUnits s ≤ s.rt.drain.toNat * periodUnits s)
/-- A packet that waits at the arbiter of port `p` is routed again by the bank that is current when it is injected (R323). One that finds
no route any more is dropped, and its request fails as at the source (R322). (DEDUCED, log entry 150) -/
def rerouted (s : State) (p : Nat) (i : Inj) : State :=
  let k := { i.pkt with epoch := s.rt.cur }
  let fresh := { k with rflags := 0 }
  if i.vc = 7 ∨ reservedPort s p = true then park s p { i with pkt := k }
  else if k.mcast then
    match branchCopy s none p fresh with
    | some c => park (noteTwice s p c.2.2) p { i with vc := c.1, pkt := c.2.1 }
    | none => routeDrop s
  else
    match routeOf s none fresh with
    | .send m vc q twice => let port := pickPort s m vc q; park (noteTwice s port twice) port { i with vc := vc, pkt := q }
    | .drop named twice =>
      let st := if named then stLink else stProt
      let s := dropRouted s twice
      match i.o with
      | some o => opMod s o.op (fun y => { y with left := y.left - 1, codes := y.codes ++ [st] }.failAt o.off o.len 0)
      | none => s
    | .deliver => park s p { i with pkt := k }
/-- Every packet that waits to be injected is routed again (R323). (DEDUCED, log entry 150) -/
def rerouteAll (s : State) : State :=
  let l := (List.range (portsOf s)).map (fun p => (p, (portGet s p).inj ++ (portGet s p).stall))
  let s := each (List.range (portsOf s)) s (fun s p => portPut s p { portGet s p with inj := [], stall := [] })
  each l s (fun s x => each x.2 s (fun s i => rerouted s x.1 i))
/-- The armed switch takes effect. -/
def switchBank (s : State) : State :=
  rerouteAll <| event { s with rt := { s.rt with cur := !s.rt.cur, armed := false, draining := true, drainLeft := s.rt.drain.toNat } } .rt 1
/-- ARM. -/
def armSwitch (s : State) : State :=
  if s.rt.draining ∨ drainLong s = false ∨ bankOk s (bankOfEpoch s (!s.rt.cur)) = false then rtErr s
  else if s.rt.swBeat.toNat ≤ s.beat.now.toNat then lateEvent (switchBank s) 7 s.rt.swBeat.toNat
  else { s with rt := { s.rt with armed := true, armAt := s.rt.swBeat } }

/-! Register writes. -/

/-- FAB_RANK_INV. -/
def rankInv (v : W32) (s : State) : State :=
  { s with rt := { s.rt with ranks := if v.getLsbD 31 then [] else tblDrop (fun k => k == fld v 0 16) s.rt.ranks } }
/-- FAB_MC_INV. -/
def mcInv (v : W32) (s : State) : State :=
  { s with rt := { s.rt with groups := if v.getLsbD 31 then [] else tblDrop (fun k => k == fld v 0 12) s.rt.groups } }
/-- FAB_RANK_BASE. -/
def rankBaseWrite (v : W64) (s : State) : State :=
  if s.rt.slice ≠ 0 ∨ fld v 0 6 ≠ 0 then rtErr s
  else { s with rt := { s.rt with rankBase := BitVec.ofNat 64 (fld v 0 48), ranks := [] } }
/-- FAB_RANK_COUNT. -/
def rankCountWrite (v : W32) (s : State) : State :=
  if s.rt.slice ≠ 0 ∨ 65536 < fld v 0 17 then rtErr s
  else { s with rt := { s.rt with rankCount := BitVec.ofNat 32 (fld v 0 17), ranks := [] } }
/-- A write to a rank-table register: an 8-byte write at FAB_RANK_COUNT also reaches FAB_RANK_INV; 4 bytes of the 64-bit
FAB_RANK_BASE have no effect (R508, R509). -/
def rankTableWrite (off : Nat) (wide : Bool) (v : W64) (s : State) : State :=
  if off = 0x90030 ∧ wide = true then rankBaseWrite v s
  else if off = 0x90030 ∨ off = 0x90034 then setEvent s .hif 3
  else if off = 0x90038 then
    let s := rankCountWrite (v.setWidth 32) s
    if wide then rankInv ((v >>> 32).setWidth 32) s else s
  else s
/-- FAB_CHIP_NUM (R336). -/
def chipNumWrite (v : W32) (s : State) : State :=
  if s.rt.slice ≠ 0 ∨ 12 ≤ fld v 12 4 then rtErr s else { s with rt := { s.rt with chip := v.setWidth 16 } }
/-- FAB_SLICE (R202, R203, R413). -/
def sliceWrite (v : W32) (s : State) : State :=
  let n : BitVec 12 := v.setWidth 12
  let r := v.getLsbD 12
  if s.rt.slice ≠ 0 ∧ n ≠ 0 ∧ n ≠ s.rt.slice then rtErr s
  else if s.rt.slice = 0 ∧ n ≠ 0 ∧ s.lease.st ≠ 1 then rtErr s
  else if n = s.rt.slice then
    (if r = s.rt.repro then s else record s 5 0 7 0xFF 0 (evDetail s .rt 0 0 v.toNat))
  else { s with rt := { s.rt with slice := n, repro := r } }
/-- FAB_SEED_SLICE (R514). -/
def seedSliceWrite (v : W32) (s : State) : State :=
  if s.rt.slice ≠ 0 then rtErr s else { s with rt := { s.rt with seedSlice := v.setWidth 12 } }

/-! Region entries (R368). -/

/-- Does a new region entry keep WBASE, SIZE and LBASE of the old one? -/
def rgnSame (a b : BitVec 256) : Bool := fld a 64 48 == fld b 64 48 && fld a 128 41 == fld b 128 41 && fld a 192 48 == fld b 192 48
/-- May a region entry become VALID? -/
def rgnFits (s : State) (g : BitVec 256) : Bool :=
  let w := fld g 64 48
  let z := fld g 128 41
  let l := fld g 192 48
  w % 4096 == 0 && z % 4096 == 0 && z != 0 && decide (w + z ≤ 2 ^ 40) && l % 4096 == 0 && decide (l + z ≤ regionsOf s * 2 ^ 30)
/-- The bits of a region entry that are not reserved. -/
def rgnMask : BitVec 256 :=
  BitVec.ofNat 256 (0x1F + 0xFFF * 2 ^ 8 + (2 ^ 48 - 1) * 2 ^ 64 + (2 ^ 41 - 1) * 2 ^ 128 + (2 ^ 48 - 1) * 2 ^ 192)
/-- FAB_RGN_n, word `w`. -/
def rgnWrite (n w : Nat) (v : W64) (s : State) : State :=
  if 64 ≤ n ∨ 4 ≤ w then s
  else
    let old := rgnGet s n
    let new := setFld old (64 * w) 64 v.toNat &&& rgnMask
    if (old.getLsbD 0 && !rgnSame old new) || (new.getLsbD 0 && !old.getLsbD 0 && !rgnFits s new) then event s .rmt 3 n
    else { s with rmt := { s.rmt with rgn := tblSet (fun _ => 0) s.rmt.rgn n new } }

/-! The rows of the table. -/

/-- PACKET_FORWARD (R317). -/
def execPacketForward (p v : Nat) (pkt : Packet) (s : State) : Host.Outcome State Fault Refusal := onFabric (forward p v pkt) s
/-- VC6_PACKET (R321). -/
def execVc6Packet (p : Nat) (s : State) : Host.Outcome State Fault Refusal := run s (vc6Take p)
/-- CMAP_SAMPLE (R330). -/
def execCmapSample (s : State) : Host.Outcome State Fault Refusal := run s cmapSample
/-- ARM (R324). -/
def execArm (s : State) : Host.Outcome State Fault Refusal := onFabric (fwOnly armSwitch) s
/-- DISARM (R324). -/
def execDisarm (s : State) : Host.Outcome State Fault Refusal := run s (fwOnly (fun s => { s with rt := { s.rt with armed := false } }))
/-- ROUTE_BANK_SWITCH (R324): the armed beat has come, after what R58 puts before it. -/
def execRouteBankSwitch (s : State) : Host.Outcome State Fault Refusal :=
  onFabric (fun s => if switchDue s = true ∧ cutDue s = false ∧ hintDue s = false then switchBank s else s) s
/-- DRAIN_DONE (R324): the drain has counted its beats. -/
def execDrainDone (s : State) : Host.Outcome State Fault Refusal :=
  run s (fun s => if s.rt.draining = true ∧ s.rt.drainLeft = 0 then event { s with rt := { s.rt with draining := false } } .rt 2 else s)
/-- RANK_INV (R314). -/
def execRankInv (v : W32) (s : State) : Host.Outcome State Fault Refusal := run s (fwOnly (rankInv v))
/-- MC_INV (R331). -/
def execMcInv (v : W32) (s : State) : Host.Outcome State Fault Refusal := run s (fwOnly (mcInv v))
/-- RANK_TABLE_WRITE (R314). -/
def execRankTableWrite (off : Nat) (wide : Bool) (v : W64) (s : State) : Host.Outcome State Fault Refusal :=
  run s (fwOnly (rankTableWrite off wide v))
/-- FAB_CHIP_NUM_WRITE (R336). -/
def execFabChipNumWrite (v : W32) (s : State) : Host.Outcome State Fault Refusal := run s (fwOnly (chipNumWrite v))
/-- FAB_SLICE_WRITE (R203). -/
def execFabSliceWrite (v : W32) (s : State) : Host.Outcome State Fault Refusal := run s (fwOnly (sliceWrite v))
/-- FAB_SEED_SLICE_WRITE (R514). -/
def execFabSeedSliceWrite (v : W32) (s : State) : Host.Outcome State Fault Refusal := run s (fwOnly (seedSliceWrite v))
/-- FAB_RGN_WRITE (R368). -/
def execFabRgnWrite (n w : Nat) (v : W64) (s : State) : Host.Outcome State Fault Refusal := run s (fwOnly (rgnWrite n w v))

end Sys2Proof.Machine
end

