-- ==== Sys2Proof/Machine/Stock.lean ====
section
/-!
DEFINITION. The seed stock (R455 to R464): spares brought in, low marks, spares that are missing. A record names the kind of the
resource by its row of Table 23-1, from 0, and the unit.
-/

namespace Sys2Proof.Machine

/-- A spare of a kind was brought in for a unit: the inventory has a change to write. -/
def consumed (s : State) (kind unit : Nat) : State :=
  let s := event s .inv 0 kind unit
  { s with inv := { s.inv with dirty := true } }
/-- A kind reached its low mark. -/
def stockLow (s : State) (kind unit : Nat) : State := event s .inv 1 kind unit
/-- The chip registers as degraded (R462). -/
def degrade (s : State) : State := { s with boot := { s.boot with degraded := true } }
/-- A spare was needed and none was left. -/
def exhausted (s : State) (kind unit : Nat) : State := degrade (event s .inv 2 kind unit)

end Sys2Proof.Machine
end

