-- ==== Sys2Proof/Machine/MemSys.lean ====
section
/-!
DEFINITION. The memory system (chapter 14; R34 to R39): corrected and uncorrectable errors, retirement and repair, maintenance,
the test port, placement.
-/

namespace Sys2Proof.Machine

/-- CMD_ERR of MEM_EVENTS. -/
def memCmdErr (s : State) : State := event s .mem 6

/-- Words of HBM become uncorrectable: what every later read of them finds (R272). -/
def wordsFail (s : State) (l : List Nat) : State :=
  each (l.filter (fun a => hbmPop s a 1)) s (fun s a => { s with ms := { s.ms with bad := insertAsc (a / 8 * 8) s.ms.bad } })

/-! Retirement (R275 to R277). -/

/-- Takes the pool page that a retirement of unit `u` of stack `j` uses; `none` where the pool is empty. -/
def takePage (s : State) (j u : Nat) : Option State :=
  let k := stackGet s j
  if k.pool = 0 then none
  else
    let s := stackPut s j { k with pool := k.pool - 1, retired := satInc k.retired, ue := k.ue.filter (fun x => x != u),
                                   ce := k.ce.filter (fun x => x.1 != u) }
    let s := consumed (event s .mem 0 j 0 u (4096 * u)) 3 j
    some (if k.pool = 4711 then stockLow s 3 j else s)
/-- A retirement finds its pool empty. -/
def poolEmpty (s : State) (j u : Nat) : State :=
  exhausted (event s .mem 2 j 0 u (4096 * u)) 3 j
/-- The contents of a unit are gone: unspecified, with no copies and no uncorrectable words. -/
def forgetUnit (s : State) (u : Nat) : State :=
  let s := invalidate s (fun l => l / 32 == u)
  let s := memForget s (4096 * u) (4096 * u + 4096)
  { s with ms := { s.ms with bad := s.ms.bad.filter (fun w => w / 4096 != u) } }
/-- RETIRE of the unit of an address: RESULT and the state (R275). -/
def retireUnit (s : State) (u : Nat) : Nat × State :=
  if readFails s (4096 * u) 4096 then (5, s)
  else
    let j := stackOf s (4096 * u)
    match takePage s j u with
    | some s => (0, s)
    | none => (2, poolEmpty s j u)
/-- The retirement of unit `u` of stack `j` without a copy. -/
def discardFrom (s : State) (j u : Nat) : Nat × State :=
  if (stackGet s j).lost then (5, s)
  else
    match takePage s j u with
    | some s => (0, forgetUnit s u)
    | none => (2, poolEmpty s j u)
/-- RETIRE_DISCARD. -/
def discardUnit (s : State) (u : Nat) : Nat × State := discardFrom s (stackOf s (4096 * u)) u
/-- The units recorded in stack `j` are retired without a copy as HBM is cleared; one whose pool is empty stays recorded (R277). -/
def retireRecorded (s : State) (j : Nat) : State :=
  each (stackGet s j).ue s (fun s u => match takePage s j u with
    | some s => s
    | none => poolEmpty s j u)

/-- Counts one corrected error of a unit; of 1,024 tracked units the one with the lowest count gives way (R276). -/
def trackCe (l : List (Nat × Nat)) (u : Nat) : List (Nat × Nat) :=
  if l.any (fun x => x.1 == u) then l.map (fun x => if x.1 = u then (u, x.2 + 1) else x)
  else if l.length < 1024 then l ++ [(u, 1)]
  else
    let least := l.foldl (fun m x => min m x.2) (l.headD (0, 0)).2
    let out := (l.find? (fun x => x.2 == least)).getD (0, 0)
    l.erase out ++ [(u, 1)]
/-- A corrected error at an address: counted, and its unit retired when its count is at CE_THRESH or past it (R276). -/
def noteCe (s : State) (a : Nat) : State :=
  if !hbmOk s a 1 then s
  else
    let u := a / 4096
    let j := stackOf s a
    let k := stackGet s j
    let k := { k with ceCount := satInc k.ceCount }
    if s.ms.ctrl.getLsbD 1 then
      let l := trackCe k.ce u
      let s := stackPut s j { k with ce := l }
      if l.any (fun x => x.1 == u && decide (fld s.ms.ctrl 8 4 ≤ x.2)) then (retireUnit s u).2 else s
    else stackPut s j k

/-! Repair commands (R275 to R281). -/

/-- A MEM_REPAIR_CMD command begins unless one is running; its outcome and stack stand in MEM_REPAIR_STATUS when it ends. -/
def repairCmd (act : State → Nat → Nat × State) (stack : State → Nat → Nat) (s : State) : State :=
  if s.ms.busy then memCmdErr s
  else
    let a := fld s.ms.repairAddr 0 48
    let (r, s') := act s a
    { s' with ms := { s'.ms with busy := true, pend := BitVec.ofNat 3 r,
                                 rstack := if r = 4 then s.ms.rstack else BitVec.ofNat 4 (stack s a) } }
/-- A command on the unit of an address in a populated, assigned region. -/
def onUnit (f : State → Nat → Nat × State) (s : State) (a : Nat) : Nat × State := if hbmOk s a 1 then f s (a / 4096) else (4, s)
/-- The bank of its stack that holds a 4 KiB unit. -/
def unitBank (u : Nat) : Nat := Config.bankOf u % max 1 Config.bankCount
/-- The hard spare rows a stack was built with, summed over its banks (Table 14-10). -/
def hardSparesTotal (j : Nat) : Nat := (List.range (max 1 Config.bankCount)).foldl (fun n b => n + Config.hardSpares j b) 0
/-- SOFT_PPR (R278). -/
def softRepair (s : State) (u : Nat) : Nat × State :=
  let j := stackOf s (4096 * u)
  let k := stackGet s j
  let sameRow (v : Nat) : Bool := stackOf s (4096 * v) == j && unitBank v == unitBank u && Config.rowOf v == Config.rowOf u
  if k.lost ∨ s.ms.bad.any (fun w => sameRow (w / 4096)) = true then (5, s)
  else if k.soft.contains (unitBank u) then (3, s)
  else (0, stackPut s j { k with soft := k.soft ++ [unitBank u] })
/-- The stack that HARD_PPR acts on: that of R35, or in an UNASSIGNED region the one its STACK field names. -/
def repairStack (s : State) (a : Nat) : Nat :=
  let p := placeGet s (a / 2 ^ 30)
  if p.cls = 0 then p.stack.toNat else stackOf s a
/-- HARD_PPR (R279). -/
def hardRepair (s : State) (a : Nat) : Nat × State :=
  let j := repairStack s a
  let b := unitBank (a / 4096)
  let k := stackGet s j
  if !hbmPop s a 1 || decide (stacksOf s ≤ j) then (4, s)
  else if !k.maint then (1, s)
  else if Config.hardSpares j b ≤ tblGet (fun _ => 0) k.hppUsed b then (3, exhausted s 3 j)
  else (0, consumed (stackPut s j { k with hppUsed := tblMod (fun _ => 0) k.hppUsed b (fun n => n + 1) }) 3 j)
/-- The end of a repair command (R281). -/
def repairDone (s : State) : State :=
  if s.ms.busy then event { s with ms := { s.ms with busy := false, result := s.ms.pend } } .mem 5 s.ms.rstack.toNat else s

/-! Maintenance (R279). -/

/-- The stacks that a region written UNASSIGNED held, while it drains. -/
def drainsOf (s : State) (n : Nat) : List Nat := tblGet (fun _ => []) s.ms.drains n
/-- May stack `j` enter maintenance? -/
def mayMaintain (s : State) (j : Nat) : Bool :=
  (List.range (regionsOf s)).all (fun n =>
    let p := placeGet s n
    !(p.pending && (drainsOf s n).contains j) && (p.cls == 0 || !(stackList s p).contains j))
/-- MEM_MAINT. -/
def maintWrite (v : W32) (s : State) : State :=
  if s.hif.locked then s
  else
    let bit (w : W32) (j : Nat) : Bool := w.getLsbD j
    let l := List.range (stacksOf s)
    if (l.filter (fun j => bit v j && !bit s.ms.maint j)).any (fun j => !mayMaintain s j) then memCmdErr s
    else
      let new := BitVec.ofNat 32 (v.toNat % 2 ^ stacksOf s)
      let s' := each (l.filter (fun j => bit v j)) s (fun s j => stackPut s j { stackGet s j with maint := true, training := false })
      let s' := each (l.filter (fun j => !bit v j && bit s.ms.maint j)) s' (fun s j => stackPut s j { stackGet s j with training := true })
      { s' with ms := { s'.ms with maint := new } }
/-- The training of stack `j` ends: recorded units are retired, and the stack is cleared, its uncorrectable words with it (R277). Soft
repairs are lost at reset only (R278). -/
def trained (s : State) (j : Nat) : State :=
  let s := { s with ms := { s.ms with parked := s.ms.parked.filter (fun x => x.2 != j) } }
  retireRecorded (stackPut s j { stackGet s j with maint := false, training := false }) j
/-- Stack `j` is out of service (R15). -/
def stackLost (s : State) (j : Nat) : State :=
  degrade (event (stackPut s j { stackGet s j with lost := true, maint := false, training := false }) .inv 2 3 j)
/-- The training that follows maintenance ends. -/
def trainDone (j : Nat) (ok : Bool) (s : State) : State :=
  if !(stackGet s j).training || decide (stacksOf s ≤ j) then s else if ok then trained s j else stackLost s j

/-! The IEEE 1500 test port (Table 14-7). -/

/-- MEM_T1500_CTRL. -/
def t1500Write (v : W32) (s : State) : State :=
  let k := stackGet s (fld v 0 4)
  if s.ms.t1500Busy ∨ k.maint = false then memCmdErr s
  else { s with ms := { s.ms with t1500Ctrl := BitVec.ofNat 32 (fld v 0 18), t1500Busy := v.getLsbD 18 } }
/-- A shift ends with the captured bits. -/
def t1500End (captured : W64) (s : State) : State :=
  if s.ms.t1500Busy then
    { s with ms := { s.ms with t1500Busy := false, t1500Data := BitVec.ofNat 64 (fld captured 0 (fld s.ms.t1500Ctrl 12 6 + 1)) } }
  else s

/-! Placement (R35 to R39). -/

/-- The units that region `n` with placement `p` puts into stack `j` (R36). -/
def unitsIn (s : State) (n : Nat) (p : Place) (j : Nat) : Nat :=
  let l := stackList s p
  match (List.range l.length).find? (fun i => l.getD i 0 == j) with
  | none => 0
  | some i =>
    let m := max 1 l.length
    262144 / m + (if (i + m - n % m) % m < 262144 % m then 1 else 0)
/-- The units that stack `j` is committed with when region `n` has placement `p`. -/
def committedWith (s : State) (n : Nat) (p : Place) (j : Nat) : Nat :=
  (List.range (regionsOf s)).foldl (fun t i => t + unitsIn s i (if i = n then p else placeGet s i) j) 0
/-- Is a new class refused (R36, R38, R279)? -/
def placeRefused (s : State) (n : Nat) (old p : Place) : Bool :=
  old.cls != 0 || old.pending || (p.cls == 3 && decide (stacksOf s ≤ p.stack.toNat))
    || (stackList s p).any (fun j => (stackGet s j).maint) || (stackList s p).any (fun j => decide (9437184 < committedWith s n p j))
/-- The uncorrectable words of a region that goes UNASSIGNED are kept by their stack (R272). (DEDUCED, log entry 156) -/
def parkBad (s : State) (n : Nat) : State :=
  let mine (w : Nat) : Bool := w / 2 ^ 30 == n
  { s with ms := { s.ms with
    bad := s.ms.bad.filter (fun w => !mine w)
    parked := s.ms.parked ++ (s.ms.bad.filter mine).map (fun w => (w, stackOf s w)) } }
/-- A region that is assigned again meets those of its uncorrectable words whose addresses lie in the stack that failed; the others are at
no address. (DEDUCED, log entry 156) -/
def unparkBad (s : State) (n : Nat) : State :=
  let mine (x : Nat × Nat) : Bool := x.1 / 2 ^ 30 == n
  { s with ms := { s.ms with
    bad := (s.ms.parked.filter (fun x => mine x && stackOf s x.1 == x.2)).foldl (fun l x => insertAsc x.1 l) s.ms.bad
    parked := s.ms.parked.filter (fun x => !mine x) } }
/-- A region is written UNASSIGNED: it refuses every access from now on, and drains (R38). A write of UNASSIGNED to an entry that is
UNASSIGNED and has drained drains again where it changes DIE, STACK or NC. -/
def placeDrain (n : Nat) (p : Place) (s : State) : State :=
  let l := stackList s (placeGet s n)
  let s := placePut (parkBad s n) n { p with pending := true }
  { s with ms := { s.ms with drains := tblSet (fun _ => []) s.ms.drains n l } }
/-- MEM_PLACE_n. (DESIGN CHOICE, log entry 155) (DEDUCED, log entry 156) -/
def placeWrite (n : Nat) (v : W32) (s : State) : State :=
  if regionsOf s ≤ n then s
  else
    let old := placeGet s n
    let p : Place := ⟨BitVec.ofNat 2 (fld v 0 2), BitVec.ofNat 2 (fld v 4 2), BitVec.ofNat 4 (fld v 8 4), v.getLsbD 12,
      old.err && !v.getLsbD 30, old.pending⟩
    if p.cls = 0 ∧ old.pending = true then s
    else if p.cls = old.cls ∧ p.die = old.die ∧ p.stack = old.stack ∧ p.nc = old.nc then placePut s n p
    else if p.cls = 0 then placeDrain n p s
    else if placeRefused s n old p then placePut s n { old with err := true }
    else unparkBad (memForget (placePut s n p) (n * 2 ^ 30) (n * 2 ^ 30 + 2 ^ 30)) n
/-- A region written UNASSIGNED has drained (R38). -/
def placeDrained (n : Nat) (s : State) : State :=
  let p := placeGet s n
  if p.pending then
    let s := { s with ms := { s.ms with drains := tblSet (fun _ => []) s.ms.drains n [] } }
    invalidate (placePut s n { p with pending := false }) (fun l => l / 2 ^ 23 == n)
  else s

/-! The rows of the table. -/

/-- HBM_READ_RETURN (R272): `corrected` are the addresses of words that were corrected on the way, `failed` of words that have become
uncorrectable since the last such report. -/
def execHbmReadReturn (e k : Nat) (corrected failed : List Nat) (s : State) : Host.Outcome State Fault Refusal :=
  onTiller (fun s e => readBack k (each corrected (wordsFail s failed) noteCe) e) e s
/-- PATROL_SCRUB (R274): one sector is read; `corrected` are the addresses of the words written back corrected, `failed` of words that have
become uncorrectable since the last such report. -/
def execPatrolScrub (addr : Nat) (corrected failed : List Nat) (s : State) : Host.Outcome State Fault Refusal :=
  run s (fun s =>
    let s := wordsFail s failed
    let a := addr / 256 * 256
    if s.ms.ctrl.getLsbD 0 && hbmOk s a 256 && !touchesLost s a 256 then
      noteUes (each (corrected.filter (fun w => w / 256 == addr / 256)) s noteCe) a 256
    else s)
/-- MEM_PLACE_WRITE (R38). -/
def execMemPlaceWrite (n : Nat) (v : W32) (s : State) : Host.Outcome State Fault Refusal := run s (fwOnly (placeWrite n v))
/-- PLACE_DRAIN_DONE (R38). -/
def execPlaceDrainDone (n : Nat) (s : State) : Host.Outcome State Fault Refusal := run s (placeDrained n)
/-- RETIRE (R275). -/
def execRetire (s : State) : Host.Outcome State Fault Refusal := run s (fwOnly (repairCmd (onUnit retireUnit) stackOf))
/-- RETIRE_DISCARD (R275). -/
def execRetireDiscard (s : State) : Host.Outcome State Fault Refusal := run s (fwOnly (repairCmd (onUnit discardUnit) stackOf))
/-- SOFT_PPR (R278). -/
def execSoftPpr (s : State) : Host.Outcome State Fault Refusal := run s (fwOnly (repairCmd (onUnit softRepair) stackOf))
/-- HARD_PPR (R279). -/
def execHardPpr (s : State) : Host.Outcome State Fault Refusal := run s (fwOnly (repairCmd hardRepair repairStack))
/-- REPAIR_DONE (R281). -/
def execRepairDone (s : State) : Host.Outcome State Fault Refusal := run s repairDone
/-- MEM_MAINT_WRITE (R279). -/
def execMemMaintWrite (v : W32) (s : State) : Host.Outcome State Fault Refusal := run s (fwOnly (maintWrite v))
/-- STACK_TRAIN_DONE (R279). -/
def execStackTrainDone (j : Nat) (ok : Bool) (s : State) : Host.Outcome State Fault Refusal := run s (trainDone j ok)
/-- T1500_GO (R279). -/
def execT1500Go (v : W32) (s : State) : Host.Outcome State Fault Refusal := run s (fwOnly (t1500Write v))
/-- T1500_DONE (R279). -/
def execT1500Done (captured : W64) (s : State) : Host.Outcome State Fault Refusal := run s (t1500End captured)

end Sys2Proof.Machine
end

