-- ==== Sys2Proof/Machine/Sheaf.lean ====
section
/-!
DEFINITION. The sheaves (chapter 12): matrix images, states, calibration windows, loss of lock.
-/

namespace Sys2Proof.Machine

/-! Matrix images (R221, R222). -/

/-- Does every element of M·Mᵀ − I lie within ±2⁻¹⁰? (DEDUCED, log entry 54) -/
def nearOrthogonal (m : List Int) : Bool :=
  let rows := (List.range 64).map (fun i => (m.drop (64 * i)).take 64)
  (List.range 64).all (fun i => (List.range 64).all (fun j =>
    let d := dotInt (rows.getD i []) (rows.getD j []) - (if i = j then (2 : Int) ^ 298 else 0)
    decide (d ≤ (2 : Int) ^ 288) && decide (-((2 : Int) ^ 288) ≤ d)))
/-- The checks on one palea set from byte `off` on. -/
def paleaOk (l : List Byte) (off : Nat) : Bool :=
  let perm := (l.drop off).take 64
  perm.all (fun b => b.toNat / 64 == 0) && (List.range 64).all (fun c => perm.any (fun b => b.toNat == c))
    && leAt l (off + 72) 56 == 0
/-- The checks of R222. -/
def imageOk (l : List Byte) : Bool :=
  let v := words32 l 0x40 4096
  let u := words32 l 0x4040 4096
  let g := words32 l 0x8040 64
  leAt l 0 1 != 0 && leAt l 4 60 == 0 && (v ++ u ++ g).all (fun x => x.isSome)
    && nearOrthogonal (v.map (fun x => x.getD 0)) && nearOrthogonal (u.map (fun x => x.getD 0))
    && g.all (fun x => decide (0 ≤ x.getD 0) && decide (x.getD 0 ≤ (2 : Int) ^ 149)) && paleaOk l 0x8140 && paleaOk l 0x81C0
/-- MATRIX_ID of an image. -/
def matrixId (i : Option (List Byte)) : W32 := match i with
  | some l => BitVec.ofNat 32 (leAt l 0 4)
  | none => 1
/-- CAL_EPOCH after a completed calibration under an image (R226). -/
def nextEpoch (x : Sheaf) (i : Option (List Byte)) : W32 :=
  let n := fld x.epoch 0 24
  BitVec.ofNat 32 (fld (matrixId i) 0 8 * 2 ^ 24 + (if n = 0xFFFFFF then 1 else n + 1))

/-! Loss of a sheaf for its grains (R181, R225, R227). -/

/-- The sh.grain instructions on sheaf `d` that satisfy `p` lose the sheaf. (DEDUCED, log entry 43) -/
def cutGrains (s : State) (d : Nat) (p : XInstr → Bool) : State :=
  each ((List.range 16).map (fun i => 16 * d + i)) s (fun s e =>
    let g := engGet s e
    if g.exec.any (fun x => wOp x.i.word == 0xF8 && x.lock && p x) then
      engPut s e { g with exec := g.exec.map (fun x => if wOp x.i.word = 0xF8 ∧ p x = true then { x with lock := false } else x) }
    else s)
/-- Does some sh.grain hold or await a grant of sheaf `d`? -/
def grainsWait (s : State) (d : Nat) : Bool :=
  (List.range 16).any (fun i => (engGet s (16 * d + i)).exec.any (fun x => wOp x.i.word == 0xF8 && x.lock))
/-- A sheaf goes to a state in which it forms no grains. -/
def sheafLeave (s : State) (d : Nat) (x : Sheaf) : State := cutGrains (sheafPut s d x) d (fun _ => true)
/-- A sheaf goes OFF for a cause other than EN, and the chip registers as degraded. -/
def sheafOff (s : State) (d : Nat) (x : Sheaf) : State :=
  degrade (event (sheafLeave s d { x with st := .off, tries := 0, progNow := false }) .shf (12 + d) d)
/-- The sheaf of die `d` is lost with its site (R15). -/
def sheafSiteLost (s : State) (d : Nat) : State := sheafOff s d { sheafGet s d with permanent := true }
/-- CAL_FAIL. -/
def calFail (s : State) (d : Nat) : State := event s .shf (8 + d) d
/-- Time since the last completed calibration of a sheaf, in units of 0.4 ns. -/
def sinceCal (s : State) (x : Sheaf) : Nat := x.aged + (s.beat.now - x.since).toNat * (640 * 2 ^ s.beat.period.toNat)

/-! Commands (R225, R228). -/

/-- Can a sheaf start warming? -/
def mayWarm (s : State) (d : Nat) : Bool :=
  let x := sheafGet s d
  x.st == .off && !x.permanent && !s.ms.sitesLost.contains (20 + d) && s.boot.sectOk.getLsbD 5 && decide (9 ≤ s.boot.stage ∧ s.boot.stage ≤ 13)
/-- SHF_CTRL. (DEDUCED, log entry 55) -/
def shfCtrlWrite (v : W32) (s : State) : State :=
  let old := s.shf.en
  let s := { s with shf := { s.shf with en := v.setWidth 4 } }
  each (List.range 4) s (fun s d =>
    let x := sheafGet s d
    if old.getLsbD d && !v.getLsbD d then sheafLeave s d { x with st := .off, tries := 0, progNow := false }
    else if !old.getLsbD d && v.getLsbD d && mayWarm s d then sheafPut s d { x with st := .warming, tries := 0 } else s)
/-- FULL_CAL for one sheaf. -/
def fullCalOne (s : State) (d : Nat) : State :=
  let x := sheafGet s d
  if x.st = .ready ∨ x.st = .window then sheafLeave s d { x with st := .calibrating, tries := 0, progNow := false } else s
/-- PROGRAM for one sheaf: the image is read and checked, then held or programmed in a window of its own. -/
def programOne (s : State) (d : Nat) : State :=
  let a := s.shf.imageAt.toNat
  let l := memRead s.mem a 33344
  if !hbmOk s a 33344 then event s .shf 16 d
  else if readFails s a 33344 then event (noteUes s a 33344) .shf 16 d
  else if !imageOk l then event s .shf 16 d
  else
    let x := sheafGet s d
    if x.st = .ready then
      cutGrains (sheafPut s d { x with st := .window, held := some l, progNow := true }) d (fun y => y.granted != 0)
    else sheafPut s d { x with held := some l, heldWin := x.st == .window, heldNext := x.st == .calibrating }

/-! Events. -/

/-- A calibration completes: a held image is taken over where `prog` says so. -/
def calDone (s : State) (d : Nat) (prog : Bool) : State :=
  let x := sheafGet s d
  let img := if prog then x.held.or x.image else x.image
  sheafPut s d { x with st := .ready, tries := 0, progNow := false, epoch := nextEpoch x img, image := img,
                        held := if prog then none else x.held, since := s.beat.now, aged := 0, heldNext := false }
/-- Warming ends. -/
def warmEnd (d : Nat) (ok : Bool) (s : State) : State :=
  let x := sheafGet s d
  if x.st ≠ .warming then s
  else if ok then sheafPut s d { x with st := .calibrating, tries := 0, heldNext := false }
  else if x.tries < 2 then sheafPut s d { x with tries := x.tries + 1 }
  else sheafOff (calFail s d) d x
/-- Spare columns that a full calibration brings in (R229). -/
def takeColumns (s : State) (d n : Nat) (left : Nat) : State :=
  (List.range n).foldl (fun s i => let s := consumed s 7 d; if left = i + 2 then stockLow s 7 d else s) s
/-- A full calibration ends; `colsV`, `colsU` columns of the meshes were found past their phase settings. -/
def calEnd (d : Nat) (ok : Bool) (colsV colsU : Nat) (s : State) : State :=
  let x := sheafGet s d
  if x.st ≠ .calibrating then s
  else
    let v := min colsV x.spareV
    let u := min colsU x.spareU
    let s := takeColumns (takeColumns s d v x.spareV) d u x.spareU
    let x := { x with spareV := x.spareV - v, spareU := x.spareU - u }
    if v < colsV ∨ u < colsU then sheafOff (exhausted s 7 d) d { x with permanent := true }
    else
      let s := sheafPut s d x
      if ok then calDone s d (!x.heldNext)
      else if x.tries = 0 then sheafPut (calFail s d) d { x with tries := 1, heldNext := false }
      else sheafOff (calFail s d) d x
/-- A touch-up or program window ends; a program that fell due in it opens the next. -/
def windowEnd (d : Nat) (ok : Bool) (s : State) : State :=
  let x := sheafGet s d
  if x.st ≠ .window then s
  else if !ok then sheafLeave (calFail s d) d { x with st := .calibrating, tries := 0, progNow := false }
  else
    let s := calDone s d x.progNow
    let y := sheafGet s d
    if y.held.isSome && y.heldWin then sheafPut s d { y with st := .window, progNow := true } else s
/-- Lock is lost. -/
def lockLost (d : Nat) (s : State) : State :=
  let x := sheafGet s d
  if x.st = .ready ∨ x.st = .window ∨ x.st = .calibrating then
    let s := event { s with shf := { s.shf with unlocks := satInc s.shf.unlocks } } .shf d d
    sheafLeave s d { x with st := .unlocked, tries := 0, progNow := false }
  else s
/-- The relock sweep ends. -/
def relockEnd (d : Nat) (ok : Bool) (s : State) : State :=
  let x := sheafGet s d
  if x.st ≠ .unlocked then s
  else if ok then sheafPut s d { x with st := .calibrating, tries := 0, heldNext := false } else sheafOff (calFail s d) d x
/-- Must a sheaf window wait for what R58 puts before it? -/
def windowWaits (s : State) : Bool := cutDue s || hintDue s
/-- A touch-up window opens at a beat boundary: from 16 ms on, with no sh.grain on the sheaf (R227). -/
def calWindow (d : Nat) (s : State) : State :=
  let x := sheafGet s d
  if x.st = .ready ∧ 40000000 ≤ sinceCal s x ∧ grainsWait s d = false ∧ windowWaits s = false then sheafPut s d { x with st := .window } else s
/-- From 19.9 ms on a window that found no boundary is forced: it is missed (R227, Table 3-4); where no sh.grain is on the sheaf it just
opens. -/
def forcedWindow (d : Nat) (s : State) : State :=
  let x := sheafGet s d
  if x.st ≠ .ready ∨ sinceCal s x < 49750000 ∨ windowWaits s = true then s
  else if !grainsWait s d then sheafPut s d { x with st := .window }
  else
    let late := (sinceCal s x - 40000000) / (640 * 2 ^ s.beat.period.toNat)
    let s := event { s with shf := { s.shf with forced := satInc s.shf.forced } } .shf (4 + d) d
    let s := lateEvent s d (s.beat.now.toNat - late)
    cutGrains (sheafPut s d { x with st := .window }) d (fun y => y.granted != 0)

/-- A sheaf event names a die that exists. -/
def onSheaf (d : Nat) (f : State → State) (s : State) : Host.Outcome State Fault Refusal :=
  run s (fun s => if d < 4 then f s else s)

/-- SHF_CTRL_WRITE (R228). -/
def execShfCtrlWrite (v : W32) (s : State) : Host.Outcome State Fault Refusal := run s (fwOnly (shfCtrlWrite v))
/-- FULL_CAL (R228). -/
def execFullCal (mask : Nat) (s : State) : Host.Outcome State Fault Refusal := run s (fwOnly (fun s => each (setBits 4 mask) s fullCalOne))
/-- PROGRAM (R222). -/
def execProgram (mask : Nat) (s : State) : Host.Outcome State Fault Refusal := run s (fwOnly (fun s => each (setBits 4 mask) s programOne))
/-- SHEAF_WARM_END (R225). -/
def execSheafWarmEnd (d : Nat) (ok : Bool) (s : State) : Host.Outcome State Fault Refusal := onSheaf d (warmEnd d ok) s
/-- SHEAF_CAL_END (R225). -/
def execSheafCalEnd (d : Nat) (ok : Bool) (colsV colsU : Nat) (s : State) : Host.Outcome State Fault Refusal :=
  onSheaf d (calEnd d ok colsV colsU) s
/-- SHEAF_WINDOW_END (R225). -/
def execSheafWindowEnd (d : Nat) (ok : Bool) (s : State) : Host.Outcome State Fault Refusal := onSheaf d (windowEnd d ok) s
/-- SHEAF_FORCED_WINDOW (R227). -/
def execSheafForcedWindow (d : Nat) (s : State) : Host.Outcome State Fault Refusal := onSheaf d (forcedWindow d) s
/-- SHEAF_CAL_WINDOW (R227). -/
def execSheafCalWindow (d : Nat) (s : State) : Host.Outcome State Fault Refusal := onSheaf d (calWindow d) s
/-- SHEAF_LOCK_LOST (R225). -/
def execSheafLockLost (d : Nat) (s : State) : Host.Outcome State Fault Refusal := onSheaf d (lockLost d) s
/-- SHEAF_RELOCK_END (R225). -/
def execSheafRelockEnd (d : Nat) (ok : Bool) (s : State) : Host.Outcome State Fault Refusal := onSheaf d (relockEnd d ok) s
/-- PHOTONIC_RATE_SAMPLE (R253): photonic dies 0 to 3 are the sheaf dies; the rate is in K/s (3 K/ms is 3,000). -/
def execPhotonicRateSample (z : Nat) (rate : Int) (s : State) : Host.Outcome State Fault Refusal :=
  run s (fun s => if z < 4 ∧ 3000 < rate.natAbs then lockLost z s else s)

end Sys2Proof.Machine
end

