-- ==== Sys2Proof/Machine/Optic.lean ====
section
/-!
DEFINITION. Optical control loops (chapter 13): ring loops, laser bias, banks and their wear, the margin test.
-/

namespace Sys2Proof.Machine

/-! Rings (R242 to R244). -/

/-- Does a ring exist? -/
def ringOk (s : State) : RingId → Bool
  | .drop p k => decide (p < portsOf s) && decide (k < 9)
  | .modulator p k => decide (p < portsOf s) && decide (k < 9)
  | .glume d g => decide (d < 4) && decide (g < 256)
/-- The channel a ring is to rest on; the 64 glume rings of a channel are numbered together. (DEDUCED, log entry 57) -/
def ringChannel : RingId → Nat
  | .drop _ k => k
  | .modulator _ k => k
  | .glume _ g => g / 64
/-- What a fault record names of a ring: port or sheaf, and ring. -/
def ringNames : RingId → Nat × Nat
  | .drop p k => (p, k)
  | .modulator p k => (p, 16 + k)
  | .glume d g => (d, 32 + g)
/-- Does the store give a heater setting for a ring (R478: section 5, for glume rings section 6)? -/
def ringMapped (s : State) : RingId → Bool
  | .glume _ _ => s.boot.sectOk.getLsbD 5
  | _ => s.boot.sectOk.getLsbD 4
/-- A ring to SWEEP, with the narrow search first where a heater setting is stored. -/
def toSweep (s : State) (r : RingId) : State := loopPut s r ⟨.sweep, ringMapped s r, 0, 0⟩
/-- A ring left LOCKED: the lane that uses it takes its port down, a glume ring its sheaf's lock (R244, R300).
(DEDUCED, log entry 59) -/
def ringLeft (s : State) (r : RingId) : State :=
  match r with
  | .drop p k => if (optGet s p).rxMap.contains k then portDown s p else s
  | .modulator p k => if (optGet s p).txMap.contains k then portDown s p else s
  | .glume d _ => lockLost d s
/-- The rings of the lanes of a port may all be LOCKED now. -/
def ringCame (s : State) (r : RingId) : State :=
  match r with
  | .drop p _ => tryTrain s p
  | .modulator p _ => tryTrain s p
  | .glume _ _ => s
/-- A mislock is counted. -/
def mislock (s : State) : State := { s with optics := { s.optics with mislock := satInc s.optics.mislock } }

/-- A sweep ends. -/
def sweepEnd (r : RingId) (found : Bool) (s : State) : State :=
  let x := loopGet s r
  if !ringOk s r || x.st != .sweep then s
  else if found then loopPut s r { x with st := .capture }
  else if x.narrow then loopPut s r { x with narrow := false }
  else if x.full < 2 then loopPut s r { x with full := x.full + 1 }
  else event (loopPut s r { x with st := .failed, full := 3 }) .opt 2 (ringNames r).1 (ringNames r).2
/-- A capture ends; the error is in MHz. (DEDUCED, log entry 58) -/
def captureEnd (r : RingId) (err : Int) (s : State) : State :=
  let x := loopGet s r
  if !ringOk s r || x.st != .capture then s
  else loopPut s r { x with st := if err.natAbs ≤ 4000 then .verify else .sweep }
/-- Pilot detection ends: the strongest pilot, and by how many dB it leads. -/
def verifyEnd (r : RingId) (pilot : Option Nat) (margin : Nat) (s : State) : State :=
  let x := loopGet s r
  if !ringOk s r || x.st != .verify then s
  else if pilot = some (ringChannel r) ∧ 10 ≤ margin then ringCame (loopPut s r ⟨.locked, true, 0, 0⟩) r
  else if pilot = some (ringChannel r) ∨ pilot = none then loopPut s r { x with st := .sweep }
  else mislock (loopPut s r { x with st := .sweep })
/-- The 10 ms check of a LOCKED ring. -/
def pilotCheck (r : RingId) (pilot : Option Nat) (s : State) : State :=
  let x := loopGet s r
  if !ringOk s r || x.st != .locked then s
  else if pilot = some (ringChannel r) then loopPut s r { x with bad := 0 }
  else if x.bad = 0 then loopPut s r { x with bad := 1 }
  else ringLeft (event (mislock (toSweep s r)) .opt 0 (ringNames r).1 (ringNames r).2) r
/-- A LOCKED ring is lost: UNLOCKED with an interrupt and a record, and SWEEP at once. -/
def unlock (r : RingId) (s : State) : State :=
  let x := loopGet s r
  if !ringOk s r || x.st != .locked then s
  else
    let s := interrupt (loopPut s r { x with st := .unlocked })
    let s := record s 5 0 (evBlock .opt) 0xFF 0 (evDetail s .opt (ringNames r).1 (ringNames r).2 0)
    ringLeft (loopPut s r ⟨.sweep, true, 0, 0⟩) r

/-! Laser banks (R247 to R249). -/

/-- Bank `n`. -/
def bankGet (s : State) (n : Nat) : Bank := tblGet Bank.init s.optics.banks n
/-- Sets bank `n`. -/
def bankPut (s : State) (n : Nat) (b : Bank) : State := { s with optics := { s.optics with banks := tblSet Bank.init s.optics.banks n b } }
/-- The ports a bank feeds. -/
def bankPorts (n : Nat) (b : Bank) : List Nat := (List.range 4).map (fun i => 8 * (n / 3) + 4 * b2n b.group + i)
/-- The starting bias of a laser. -/
def startOf (s : State) (n k : Nat) : Nat := min 200 (Config.startBias (s.boot.sectOk.getLsbD 3) n k)
/-- The bias of a laser in steps of 0.5 %; one that has not moved is at its starting bias. (DEDUCED, log entry 63) -/
def biasOf (s : State) (n k : Nat) : Nat := let v := tblGet (fun _ => 0) (bankGet s n).bias k; if v = 0 then startOf s n k else v
/-- The power in 0.01 dBm that the far end of port `p` reports for channel `k`: of a channel in use, if it has reported one. -/
def reported (s : State) (p k : Nat) : Option Int :=
  let o := optGet s p
  let v := tblGet (fun _ => 0) o.far k
  if v = 0 ∨ o.txMap.contains k = false then none else some (BitVec.ofNat 16 (v - 1)).toInt
/-- The least power that the UP ports among `ports` report for channel `k`. -/
def leastPower (s : State) (ports : List Nat) (k : Nat) : Option Int :=
  ((ports.filter (fun p => (portGet s p).st == .up)).filterMap (fun p => reported s p k)).foldl
    (fun m v => match m with
      | none => some v
      | some w => some (if v < w then v else w)) none
/-- The unused spare bank of an I/O die, if there is one. -/
def spareBank (s : State) (i : Nat) : Option Nat :=
  ((List.range 3).map (fun b => 3 * i + b)).find? (fun n => (bankGet s n).st == 2 && (bankGet s n).swapTo.isNone)
/-- One tick of the bias loop of laser `k` of bank `n`; `reports` are the ports that reported within 100 µs. -/
def biasTick (n k : Nat) (reports : List Nat) (s : State) : State :=
  let b := bankGet s n
  if 3 * ioDiesOf s ≤ n ∨ 9 ≤ k ∨ b.st ≠ 1 then s
  else
    match leastPower s ((bankPorts n b).filter (fun p => reports.contains p)) k with
    | none => s
    | some v =>
      let t := s.optics.rxTarget.toInt
      let c := biasOf s n k
      let c' := if v < t - 50 then min 200 (c + 1) else if t + 100 < v then max (startOf s n k) (c - 1) else c
      let s := bankPut s n { b with bias := tblSet (fun _ => 0) b.bias k c' }
      let top := (List.range 9).foldl (fun m j => max m (biasOf s n j)) 0
      let b := bankGet s n
      let s := bankPut s n { b with wear := BitVec.ofNat 7 (top / 2), pend := b.pend || decide (170 ≤ top) }
      if !b.pend && decide (170 ≤ top) then event s .opt 6 n else s
/-- The spare bank of the die begins to take bank `n`'s place: the lasers of `n` go off and its four ports down. -/
def swapStart (s : State) (n sp : Nat) : State :=
  let ports := bankPorts n (bankGet s n)
  let s := bankPut s sp { bankGet s sp with swapTo := some n }
  let s := each ports s (fun s p => each (List.range 9) s (fun s k => loopPut s (RingId.modulator p k) .init))
  each ports s portDown
/-- A worn bank's window: its swap begins if the die has an unused spare; NO_SPARE_BANK says that it has none (Table 13-9). -/
def window (s : State) (n : Nat) : State :=
  let b := bankGet s n
  if b.st = 1 ∧ b.pend = true ∧ n < 3 * ioDiesOf s then
    match spareBank s (n / 3) with
    | some sp => swapStart s n sp
    | none => exhausted (event s .opt 9 n) 6 n
  else s
/-- The window opens by itself when the four ports are in hold or down. -/
def windowDue (n : Nat) (s : State) : State :=
  if (bankPorts n (bankGet s n)).all (fun p => (portGet s p).st == .hold || (portGet s p).st == .down) then window s n else s
/-- A laser of a worn bank has been at full bias with too little power for 10 ms. -/
def forcedSwap (n : Nat) (s : State) : State :=
  let b := bankGet s n
  let short (k : Nat) : Bool := biasOf s n k == 200 && (match leastPower s (bankPorts n b) k with
    | some v => decide (v < s.optics.rxTarget.toInt - 300)
    | none => false)
  if n < 3 * ioDiesOf s ∧ b.st = 1 ∧ b.pend = true ∧ (List.range 9).any short = true then
    match spareBank s (n / 3) with
    | some sp => swapStart (event s .opt 8 n) n sp
    | none => exhausted (event s .opt 9 n) 6 n
  else s
/-- OPT_CMD SWAP. -/
def optSwap (n : Nat) (s : State) : State := if 3 * ioDiesOf s ≤ n then event s .opt 11 n else window s n

/-! Rings and the temperature of their die (Table 13-2). -/

/-- Does a laser bank feed port `p`: one in service for its group that is not being replaced? -/
def fed (s : State) (p : Nat) : Bool :=
  let l := (List.range 3).map (fun b => 3 * (p / 8) + b)
  l.any (fun n => let b := bankGet s n; b.st == 1 && b.group == (p / 4 % 2 == 1) && !l.any (fun m => (bankGet s m).swapTo == some n))
/-- Is a ring's loop enabled: the lane not retired and its bank on, the sheaf enabled? -/
def ringEnabled (s : State) : RingId → Bool
  | .drop p k => !(optGet s p).rxRet.getLsbD k
  | .modulator p k => !(optGet s p).txRet.getLsbD k && fed s p
  | .glume d _ => s.shf.en.getLsbD d && !(sheafGet s d).permanent && s.boot.sectOk.getLsbD 5
/-- A ring follows the temperature of its die: IDLE below 10 °C, SWEEP from there on if enabled. -/
def ringTemp (warm : Bool) (s : State) (r : RingId) : State :=
  let x := loopGet s r
  if warm then (if x.st = .idle ∧ ringEnabled s r = true then toSweep s r else s)
  else if x.st = .idle then s
  else
    let s := loopPut s r .init
    if x.st = .locked then ringLeft s r else s
/-- Does the device run its ring loops: from the photonic step of bring-up on (Table 24-4)? -/
def photonicsOn (s : State) : Bool := decide (9 ≤ s.boot.stage ∧ s.boot.stage ≤ 13)
/-- A swap ends: the worn bank is RETIRED, the spare is in service, and the transmit rings of the ports start over where
their die is warm enough (Table 13-2). -/
def swapDone (n : Nat) (s : State) : State :=
  match ((List.range 3).map (fun b => 3 * (n / 3) + b)).find? (fun m => (bankGet s m).swapTo == some n) with
  | none => s
  | some sp =>
    let b := bankGet s n
    let s := bankPut s n { b with st := 3, pend := false }
    let s := bankPut s sp { bankGet s sp with st := 1, group := b.group, swapTo := none }
    let warm := decide (80 ≤ (zoneGet s (49 + 2 * (n / 3))).temp) && photonicsOn s
    let s := each (bankPorts n b) s (fun s p => each (List.range 9) s (fun s k => ringTemp warm s (RingId.modulator p k)))
    stockLow (consumed (event s .opt 7 sp) 6 sp) 6 sp
/-- The rings of I/O die `i`. -/
def ioRings (i : Nat) : List RingId :=
  (List.range 8).flatMap (fun q => (List.range 9).flatMap (fun k => [RingId.drop (8 * i + q) k, RingId.modulator (8 * i + q) k]))
/-- The rings of every photonic die follow its temperature, given by zone, from the photonic step of bring-up on (Table 24-4). -/
def ringTemps (temp : Nat → Int) (s : State) : State :=
  if !photonicsOn s then s
  else
    let s := each (List.range (ioDiesOf s)) s (fun s i => each (ioRings i) s (ringTemp (decide (80 ≤ temp (49 + 2 * i)))))
    each (List.range 4) s (fun s d =>
      each ((List.range 256).map (fun g => RingId.glume d g)) s (ringTemp (decide (80 ≤ temp (65 + 2 * d)))))

/-! The margin test (R250 to R252). -/

/-- The margin of each lane in use of one direction, a lane whose ring has FAILED counting as 0. -/
def laneMargins (s : State) (p : Nat) (tx : Bool) (m : List Nat) : List Nat :=
  let map := if tx then (optGet s p).txMap else (optGet s p).rxMap
  (List.range map.length).map (fun i =>
    let k := map.getD i 0
    if (loopGet s (if tx then RingId.modulator p k else RingId.drop p k)).st = .failed then 0 else m.getD i 0)
/-- The place of the least of a list, the first of several. -/
def leastAt (l : List Nat) : Nat := (List.range l.length).foldl (fun b i => if l.getD i 0 < l.getD b 0 then i else b) 0
/-- The rank of the lane that a step retires: one whose ring has FAILED first, then the one with the least margin (R250). -/
def worstLane (s : State) (p : Nat) (tx : Bool) (m : List Nat) : Nat :=
  let map := if tx then (optGet s p).txMap else (optGet s p).rxMap
  ((List.range map.length).find? (fun i =>
    (loopGet s (if tx then RingId.modulator p (map.getD i 0) else RingId.drop p (map.getD i 0))).st == .failed)).getD (leastAt m)
/-- One direction goes on to its next step after a failed pass: the lane of rank `i` is retired, and the spare channel takes its place if
it is unused; otherwise the logical lane is not used any more. None: nothing is left to retire. -/
def nextStep (ret : BitVec 9) (lanes map : List Nat) (i : Nat) : Option (BitVec 9 × List Nat × List Nat) :=
  let ret' := putBit ret (map.getD i 0) true
  if popc 9 ret.toNat = 0 then some (ret', lanes, map.set i (((List.range 9).find? (fun k => !map.contains k)).getD 8))
  else if popc 9 ret.toNat = 1 then some (ret', lanes.eraseIdx i, map.eraseIdx i) else none
/-- The result that a passed test stands for (Table 13-4). -/
def marginState (o : OptPort) : Nat :=
  if !o.fec then 1
  else
    let n := max (popc 9 o.txRet.toNat) (popc 9 o.rxRet.toNat)
    if n = 0 then 2 else if n = 1 then 3 else 4
/-- A test of port `p` starts at the step that its FEC and retired lanes stand for. (DEDUCED, log entry 60) -/
def testStart (s : State) (p : Nat) (fec : Bool) : State :=
  let o := optGet s p
  let o := { o with fec := fec }
  portPut (optPut s p { o with test := some (marginState o) }) p { portGet s p with testFresh := true }
/-- The lane counts and the rings of a port after a step has retired lanes of it. -/
def stepLanes (s : State) (p : Nat) : State :=
  let o := optGet s p
  let s := portPut s p { portGet s p with txLanes := BitVec.ofNat 4 o.txMap.length, rxLanes := BitVec.ofNat 4 o.rxMap.length, lanes := [],
                                          rot := 0, rxRot := 0 }
  let s := each (setBits 9 o.txRet.toNat) s (fun s k => loopPut s (RingId.modulator p k) .init)
  each (setBits 9 o.rxRet.toNat) s (fun s k => loopPut s (RingId.drop p k) .init)
/-- The seed stock's part of a step that retires a lane of a direction with `n` retired before. -/
def waveTaken (s : State) (p n : Nat) : State :=
  if n = 0 then stockLow (consumed s 5 p) 5 p
  else
    let s := exhausted s 5 p
    { s with inv := { s.inv with dirty := true } }
/-- A margin test ends in DOWN: the port goes out of service until it has passed a test and is released (R250, R251).
(DEDUCED, log entry 61) -/
def marginDown (s : State) (p : Nat) : State :=
  let s := optPut s p { optGet s p with mstate := 5, test := none, again := false }
  let s := portPut s p { portGet s p with onHold := true }
  let s := degrade (event s .opt 4 p)
  if (portGet s p).st = .down then tryTrain s p else portDown s p
/-- No good flit has arrived on some lane for 2 µs: the port goes down, and a margin test under way ends as DOWN (Table 16-11). -/
def silence (p : Nat) (s : State) : State :=
  if portsOf s ≤ p ∨ (portGet s p).st = .train then s else if (optGet s p).test.isSome then marginDown s p else portDown s p
/-- A step of the test retrains the port, with the delay measured, before its pass (R250); the port then comes back in HOLD, in SELF, or
DOWN for the rest of the test. -/
def stepTrain (s : State) (p : Nat) : State :=
  let s := optPut s p { optGet s p with again := true }
  tryTrain (setHops (forgetBeat (portPut s p (portGet s p).cleared) p)) p
/-- A pass failed with FEC on: the directions that are short go on; the port goes out of service when one cannot. -/
def stepOn (s : State) (p : Nat) (tx rx : List Nat) : State :=
  let o := optGet s p
  let short (m : List Nat) : Bool := m.any (fun v => decide (v < s.optics.mMin.toNat))
  let t := if short tx then nextStep o.txRet o.txLane o.txMap (worstLane s p true tx) else some (o.txRet, o.txLane, o.txMap)
  let r := if short rx then nextStep o.rxRet o.rxLane o.rxMap (worstLane s p false rx) else some (o.rxRet, o.rxLane, o.rxMap)
  match t, r with
  | some t, some r =>
    let s := if short tx then waveTaken s p (popc 9 o.txRet.toNat) else s
    let s := if short rx then waveTaken s p (popc 9 o.rxRet.toNat) else s
    let o' := { o with txRet := t.1, txLane := t.2.1, txMap := t.2.2, rxRet := r.1, rxLane := r.2.1, rxMap := r.2.2 }
    stepTrain (stepLanes (optPut s p { o' with test := some (marginState o') }) p) p
  | _, _ => marginDown s p
/-- A pass of the test ends. -/
def passEnd (p : Nat) (tx rx : List Nat) (s : State) : State :=
  let o := optGet s p
  if portsOf s ≤ p ∨ o.test = none ∨ o.again = true then s
  else
    let tx := laneMargins s p true tx
    let rx := laneMargins s p false rx
    let least := (tx ++ rx).foldl (fun m v => min m v) 255
    let o := { o with margin := BitVec.ofNat 8 least }
    let s := optPut s p o
    if s.optics.mMin.toNat ≤ least then
      let s := optPut s p { o with mstate := marginState o, test := none }
      let x := portGet s p
      let s := portPut s p { x with passed := x.passed || x.testFresh }
      tryTrain (if o.fec then event s .opt 3 p (marginState o) else s) p
    else if !o.fec then stepTrain (optPut s p { o with fec := true, test := some (marginState { o with fec := true }) }) p
    else stepOn s p tx rx
/-- OPT_CMD TEST. -/
def testCmd (p : Nat) (s : State) : State :=
  if p < portsOf s ∧ (portGet s p).st = .hold ∧ (optGet s p).test = none then testStart s p false else event s .opt 11 p
/-- Recovery: the port goes down and its test runs with FEC as it is. -/
def recovery (p : Nat) (s : State) : State :=
  if s.optics.ctrl.getLsbD 0 ∧ p < portsOf s ∧ (portGet s p).st = .up then
    portDown (testStart (event s .opt 5 p) p (optGet s p).fec) p
  else s

/-- OPT_SLEW_LIMIT. (DEDUCED, log entry 64) -/
def slewWrite (v : W32) (s : State) : State :=
  let n := fld v 0 6
  let s1 := if n < 4 ∨ 40 < n then event s .opt 11 else s
  if s.optics.slew.toNat < n then event s1 .opt 10
  else if n < 4 then s1 else { s1 with optics := { s1.optics with slew := BitVec.ofNat 6 n } }

/-! The rows of the table. -/

/-- LINK_SILENCE_TIMEOUT (R300). -/
def execLinkSilenceTimeout (p : Nat) (s : State) : Host.Outcome State Fault Refusal := onFabric (silence p) s

/-- RING_SWEEP_END (R242). -/
def execRingSweepEnd (r : RingId) (found : Bool) (s : State) : Host.Outcome State Fault Refusal := run s (sweepEnd r found)
/-- RING_CAPTURE_END (R242). -/
def execRingCaptureEnd (r : RingId) (err : Int) (s : State) : Host.Outcome State Fault Refusal := run s (captureEnd r err)
/-- RING_VERIFY_END (R242). -/
def execRingVerifyEnd (r : RingId) (pilot : Option Nat) (margin : Nat) (s : State) : Host.Outcome State Fault Refusal :=
  onFabric (verifyEnd r pilot margin) s
/-- RING_PILOT_CHECK (R242). -/
def execRingPilotCheck (r : RingId) (pilot : Option Nat) (s : State) : Host.Outcome State Fault Refusal := onFabric (pilotCheck r pilot) s
/-- RING_UNLOCK (R242). -/
def execRingUnlock (r : RingId) (s : State) : Host.Outcome State Fault Refusal := onFabric (unlock r) s
/-- LASER_BIAS_TICK (R247). -/
def execLaserBiasTick (n k : Nat) (reports : List Nat) (s : State) : Host.Outcome State Fault Refusal := run s (biasTick n k reports)
/-- BANK_SWAP_START (R248). -/
def execBankSwapStart (n : Nat) (s : State) : Host.Outcome State Fault Refusal := onFabric (windowDue n) s
/-- BANK_SWAP_DONE (R248). -/
def execBankSwapDone (n : Nat) (s : State) : Host.Outcome State Fault Refusal := onFabric (swapDone n) s
/-- FORCED_SWAP (R249). -/
def execForcedSwap (n : Nat) (s : State) : Host.Outcome State Fault Refusal := onFabric (forcedSwap n) s
/-- OPT_SWAP (R248). -/
def execOptSwap (n : Nat) (s : State) : Host.Outcome State Fault Refusal := onFabric (fwOnly (optSwap n)) s
/-- TEST (R251). -/
def execTest (p : Nat) (s : State) : Host.Outcome State Fault Refusal := run s (fwOnly (testCmd p))
/-- RECOVERY (R251). -/
def execRecovery (p : Nat) (s : State) : Host.Outcome State Fault Refusal := onFabric (recovery p) s
/-- MARGIN_PASS_END (R250). -/
def execMarginPassEnd (p : Nat) (tx rx : List Nat) (s : State) : Host.Outcome State Fault Refusal := onFabric (passEnd p tx rx) s
/-- OPT_SLEW_WRITE (R254). -/
def execOptSlewWrite (v : W32) (s : State) : Host.Outcome State Fault Refusal := run s (fwOnly (slewWrite v))

end Sys2Proof.Machine
end

