-- ==== Sys2Proof/Machine/Sites.lean ====
section
/-!
DEFINITION. Die-to-die interfaces (R13 to R15, R271), numbered as in CAL_INV_WIRE_i: compute links 0 to 3, universal sites 4 to 19,
sheaf sites 20 to 23.
-/

namespace Sys2Proof.Machine

/-- CAL_INV_WIRE of an interface. -/
def wireGet (s : State) (i : Nat) : W32 := tblGet (fun _ => 0) s.inv.wire i
/-- Sets CAL_INV_WIRE of an interface. -/
def wirePut (s : State) (i : Nat) (v : W32) : State := { s with inv := { s.inv with wire := tblSet (fun _ => 0) s.inv.wire i v } }
/-- The pending queues of arbiter instance `i` of kind `k` empty: its resource is lost (Table 15-3). (DEDUCED, log entry 70) -/
def parkedFail (s : State) (k i : Nat) : State :=
  { s with arb := { s.arb with inst := tblMod (fun _ => Arb.init) s.arb.inst (1024 * k + i) (fun a => { a with reqs := [] }) } }
/-- An interface that cannot be repaired is lost, and its die out of service (R15). (DEDUCED, log entry 67)
(DESIGN CHOICE, log entry 68) -/
def siteLost (s : State) (i : Nat) : State :=
  let s := exhausted (wirePut s i (putBit (wireGet s i) 11 true)) 4 i
  let s := { s with ms := { s.ms with sitesLost := insertAsc i s.ms.sitesLost, retrain := s.ms.retrain.filter (fun x => x != i) },
                    inv := { s.inv with dirty := true } }
  if i < 4 then
    each [2 * i, 2 * i + 1] s (fun s n => parkedFail (parkedFail s 2 n) 3 n)
  else if i < 20 then
    let s := each ((List.range (stacksOf s)).filter (fun j => stackSite s j + 4 == i)) s (fun s j =>
      let s := stackPut s j { stackGet s j with lost := true, maint := false, training := false }
      parkedFail (each (List.range 32) s (fun s p => parkedFail s 0 (32 * j + p))) 1 j)
    each ((List.range (portsOf s)).filter (fun p => ioSite s (p / 8) + 4 == i)) s (fun s p => parkedFail (portDown s p) 4 p)
  else sheafSiteLost (parkedFail s 5 (i - 20)) (i - 20)
/-- A block arrives: a CRC mismatch makes the sender resend it, and the sixteenth in a row starts a retrain.
(DEDUCED, log entry 69) -/
def blockRx (i : Nat) (ok : Bool) (s : State) : State :=
  if 24 ≤ i ∨ s.ms.sitesLost.contains i = true ∨ s.ms.retrain.contains i = true then s
  else
    let n := tblGet (fun _ => 0) s.ms.resend i
    let put (n : Nat) : MemSys := { s.ms with resend := tblSet (fun _ => 0) s.ms.resend i n }
    if ok then { s with ms := put 0 }
    else if n < 15 then { s with ms := { put (n + 1) with crc := satInc s.ms.crc } }
    else { s with ms := { put 0 with retrain := insertAsc i s.ms.retrain } }
/-- Training of an interface that leaves `spares` spare wires in use in each of its groups, of which it has those of Table 1-2; a spare that an
earlier training consumed is not returned (R456). -/
def wiresTrained (s : State) (i : Nat) (spares : List Nat) : State :=
  let spares := spares.take (wireGroups i)
  let most := spares.foldl max 0
  if 4 < most then siteLost s i
  else
    let old := wireGet s i
    let most := max most (fld old 8 3)
    let s := wirePut s i (BitVec.ofNat 32 (max (spares.filter (fun n => n != 0)).length (fld old 0 8) + most * 2 ^ 8))
    let s := if wireGet s i = old then s else consumed s 4 i
    if 3 ≤ most ∧ fld old 8 3 < 3 then stockLow s 4 i else s
/-- A retrain ends. -/
def retrainEnd (i : Nat) (spares : List Nat) (s : State) : State :=
  if s.ms.retrain.contains i then
    let s := wiresTrained s i spares
    if s.ms.sitesLost.contains i then s
    else
      event { s with ms := { s.ms with retrain := s.ms.retrain.filter (fun x => x != i), crc := satInc s.ms.crc } } .mem 3 i
  else s

/-- D2D_BLOCK_RX (R271). -/
def execD2dBlockRx (i : Nat) (crcOk : Bool) (s : State) : Host.Outcome State Fault Refusal := run s (blockRx i crcOk)
/-- D2D_RETRAIN_END (R271). -/
def execD2dRetrainEnd (i : Nat) (spares : List Nat) (s : State) : Host.Outcome State Fault Refusal := onFabric (retrainEnd i spares) s

end Sys2Proof.Machine
end

