-- ==== Sys2Proof/Machine/Seed.lean ====
section
/-!
DEFINITION. Tiles and their spares, spare rows, and the inventory record (R455 to R464).
-/

namespace Sys2Proof.Machine

/-! Tiles. -/

/-- Physical tile `t`. -/
def tileGet (s : State) (t : Nat) : Tile := tblGet (fun _ => Tile.init) s.inv.tiles t
/-- Sets physical tile `t`. -/
def tilePut (s : State) (t : Nat) (x : Tile) : State :=
  { s with inv := { s.inv with tiles := tblSet (fun _ => Tile.init) s.inv.tiles t x } }
/-- Sets the physical tile of logical engine `e`, or none. -/
def mapPut (s : State) (e : Nat) (t : Option Nat) : State :=
  { s with inv := { s.inv with map := tblSet mapInit s.inv.map e (match t with
    | some t => t + 1
    | none => 0) } }
/-- The spare tiles of die `d` in the stock, ascending. -/
def spareTiles (s : State) (d : Nat) : List Nat :=
  [18 * d + 16, 18 * d + 17].filter (fun t =>
    let x := tileGet s t
    !x.failed && x.checking.isNone && !(List.range 16).any (fun i => tileOf s (16 * d + i) == some t))

/-- A tiller with all of its state zero, its debug registers kept. -/
def Engine.zeroed (g : Engine) : Engine := { Engine.zero with bps := g.bps, wps := g.wps, asel := g.asel }
/-- The tile of engine `e` enters service STOPPED with zero state (R28, R459). -/
def tileEnters (s : State) (e : Nat) : State :=
  memZero (engPut s e (engGet s e).zeroed) (winBase e) (winBase e + 0x1C00000)

/-- A spare of die `d` has left the stock. (DEDUCED, log entry 113) -/
def spareGone (s : State) (d : Nat) : State := if (spareTiles s d).isEmpty then stockLow s 0 d else s
/-- A failed tile `t` of engine `e` has no spare: the array goes off, or the engine is absent (R96, R29). -/
def noSpareTile (s : State) (e t : Nat) : State :=
  let s := exhausted s 0 e
  let x := tileGet s t
  if x.onlyArray then tileEnters (tilePut s t { x with testing := false, onlyArray := false, arrayOff := true }) e
  else mapPut (tileEnters (tilePut s t { x with testing := false, failed := true }) e) e none
/-- The spare of the die of engine `e` that is being checked for a higher engine whose tile faulted in the cycle in which `t` did
(Table 23-4). (DEDUCED, log entry 163) -/
def spareOver (s : State) (e t : Nat) : Option (Nat × Nat × Nat) :=
  ([18 * (e / 16) + 16, 18 * (e / 16) + 17].filterMap (fun sp => (tileGet s sp).checking.bind (fun e' =>
    (tileOf s e').bind (fun t' =>
      if e < e' ∧ (tileGet s t).hit.isSome = true ∧ (tileGet s t).hit = (tileGet s t').hit then some (sp, e', t') else none)))).head?
/-- Engine `e` needs a spare: the lowest of the die is checked for 1 ms (R459). Of two engines whose tiles faulted in one cycle the lower has
the last spare (Table 23-4). (DEDUCED, log entry 163) -/
def seekSpare (s : State) (e t : Nat) : State :=
  let check (s : State) (sp : Nat) : State := tilePut s sp { tileGet s sp with checking := some e }
  match spareTiles s (e / 16) with
  | sp :: _ => check s sp
  | [] => match spareOver s e t with
    | some (sp, e', t') => noSpareTile (check s sp) e' t'
    | none => noSpareTile s e t

/-- The spare column of tile `t` comes into use. -/
def columnOut (s : State) (t : Nat) : State := stockLow (consumed (tilePut s t { tileGet s t with colmap := true }) 1 t) 1 t
/-- What a self-test found asks for nothing but the spare column. -/
def oneColumn (x : Tile) (cols : List Nat) (other : Bool) : Bool := cols.length == 1 && !other && !x.colmap

/-! Spare rows (R461). -/

/-- A runtime spare row of a bank of tile `t` comes into use; with none left the tile becomes WORN.
(DESIGN CHOICE, log entry 44) -/
def useRow (s : State) (t bank : Nat) : State :=
  let x := tileGet s t
  let n := tblGet (fun _ => 0) x.rowsUsed bank
  if n < 8 then
    let s := consumed (tilePut s t { x with rowsUsed := tblSet (fun _ => 0) x.rowsUsed bank (n + 1) }) 2 t
    if n = 7 then stockLow s 2 t else s
  else exhausted (tilePut s t { x with worn := true }) 2 t
/-- A self-test of tile `t` replaces the rows that produced an uncorrectable error; 48 banks are interleaved by 256 bytes (R65). -/
def testRows (s : State) (t : Nat) : State :=
  let l := (tileGet s t).ueRows
  if l.isEmpty then s
  else
    let s := each l s (fun s u => useRow s t (u % 48))
    tilePut s t { tileGet s t with ueRows := [] }

/-! Tile faults (R459, R460). -/

/-- The remote operations and commits of the instructions of engine `e` are given up. -/
def dropOps (s : State) (e : Nat) : State :=
  let gone (o : RmtOp) : Bool := match o.owner with
    | Owner.instr i _ => i == e
    | _ => false
  let s := giveUp s gone
  { s with mir := { s.mir with commits := s.mir.commits.filter (fun c => c.e != e) } }
/-- A tile fault: the tile stops, its descriptor hears DATA_UNCORRECTABLE, its self-test begins. (DEDUCED, log entry 115) -/
def tileFaults (e cause : Nat) (s : State) : State :=
  match tileOf s e with
  | none => s
  | some t =>
    let x := tileGet s t
    if underTest s e then s
    else
      let g := engGet s e
      let s := dropOps s e
      let s := engPut s e { g.discard with st := .stopped, exec := [], incs := [], exc := none, ending := false, cutBy := 0, single := false }
      let s := record s 2 stData 16 0xFF 0 (leBytes 4 0 ++ [BitVec.ofNat 8 cause, BitVec.ofNat 8 e, BitVec.ofNat 8 t])
      let s := engLeave s e (pickStatus [stData, g.cutBy]) false s.beat.now
      tilePut s t { x with testing := true, hit := some s.beat.now }
/-- The self-test after a fault ends: `cols` are the failing physical columns, `other` says that something else failed. -/
def selftestEnds (e : Nat) (cols : List Nat) (other : Bool) (s : State) : State :=
  match tileOf s e with
  | none => s
  | some t =>
    let x := tileGet s t
    if !x.testing || (List.range 72).any (fun k => (tileGet s k).checking == some e) then s
    else if cols.isEmpty && !other then
      let s := testRows s t
      let x := tileGet s t
      let l := 0 :: x.passes
      tileEnters (tilePut s t { x with testing := false, passes := l, worn := x.worn || decide (3 ≤ l.length) }) e
    else if oneColumn x cols other then
      let s := testRows s t
      tileEnters (columnOut (tilePut s t { tileGet s t with testing := false }) t) e
    else seekSpare (tilePut s t { x with onlyArray := !other }) e t
/-- The check of a spare for engine `e` ends: it enters service, or it has failed and the next one is checked. -/
def spareChecked (e : Nat) (ok : Bool) (s : State) : State :=
  match tileOf s e, (List.range 72).find? (fun k => (tileGet s k).checking == some e) with
  | some t, some sp =>
    let y := tileGet s sp
    if ok then
      let x := tileGet s t
      let s := tilePut (tilePut s t { x with testing := false, failed := true, onlyArray := false }) sp { y with checking := none }
      spareGone (consumed (tileEnters (mapPut s e (some sp)) e) 0 sp) (e / 16)
    else
      let s := tilePut s sp { y with checking := none, failed := true }
      seekSpare (spareGone { s with inv := { s.inv with dirty := true } } (e / 16)) e t
  | _, _ => s

/-! A job boundary (R458). -/

/-- The tile of engine `e`, failed or WORN, is replaced at a boundary: by the lowest spare of its die, or the "none left" outcome
(R458, Table 23-1). -/
def boundarySwap (s : State) (e t : Nat) : State :=
  match spareTiles s (e / 16) with
  | sp :: _ =>
    let s := tileEnters (mapPut (tilePut s t { tileGet s t with failed := true, testing := false }) e (some sp)) e
    spareGone (consumed s 0 sp) (e / 16)
  | [] => noSpareTile s e t
/-- Is some engine absent, or some array off (R29, R96)? -/
def shortOfTiles (s : State) : Bool :=
  (List.range 64).any (fun e => match tileOf s e with
    | some t => (tileGet s t).arrayOff
    | none => true)
/-- What the self-tests of a boundary found is applied: to spares in the stock, then engine by engine (R456, R458). Any test or check under
way ends with the boundary. The tests leave every store at zero; a chip that is short of tiles registers as degraded (R29, R96). -/
def boundary (tests : List (Nat × List Nat × Bool)) (s : State) : State :=
  let bad (t : Nat) : Option (List Nat × Bool) := (tests.find? (fun x => x.1 == t)).map (fun x => x.2)
  let s := each (List.range 72) s (fun s t =>
    let s := testRows s t
    let x := tileGet s t
    if x.testing || x.checking.isSome then tilePut s t { x with testing := false, checking := none, onlyArray := false } else s)
  let s := each (List.range 4) s (fun s d => each (spareTiles s d) s (fun s t =>
    match bad t with
    | none => s
    | some (cols, other) =>
      if oneColumn (tileGet s t) cols other then columnOut s t
      else
        let s := tilePut s t { tileGet s t with failed := true }
        spareGone { s with inv := { s.inv with dirty := true } } d))
  let s := memZero (each (List.range 64) s (fun s e => engMod s e (fun g => { g.zeroed with ctrs := g.ctrs }))) (winBase 0) (winBase 64)
  let s := each (List.range 64) s (fun s e =>
    match tileOf s e with
    | none => s
    | some t =>
      let x := tileGet s t
      match bad t with
      | some (cols, other) =>
        if oneColumn x cols other then (if x.worn then boundarySwap (columnOut s t) e t else columnOut s t)
        else boundarySwap (tilePut s t { x with onlyArray := !other }) e t
      | none => if x.worn then boundarySwap s e t else s)
  if shortOfTiles s then degrade s else s

/-- A row of bank `bank` of tile `t` has had its second corrected error and is replaced while the tile is STOPPED (R461). -/
def rowReplace (t bank : Nat) (s : State) : State :=
  let idle := !((List.range 64).any (fun e => tileOf s e == some t && (engGet s e).st != .stopped))
  if 72 ≤ t ∨ 48 ≤ bank ∨ (tileGet s t).failed = true ∨ idle = false then s else useRow s t bank

/-! The inventory record (R457). -/

/-- Changes every entry of a table. -/
def tblMap {α : Type} [DecidableEq α] (d : Nat → α) (f : Nat → α → α) (t : Tbl α) : Tbl α :=
  t.foldr (fun x r => tblSet d r x.1 (f x.1 x.2)) []
/-- The record of the present inventory. -/
def recordOf (s : State) : Record :=
  { tiles := tblMap (fun _ => Tile.init) (fun _ x => { x with onlyArray := false, testing := false, checking := none, ueRows := [], hit := none }) s.inv.tiles
    map := s.inv.map
    wire := s.inv.wire
    stackTab := tblMap (fun _ => Stack.init) (fun _ k => { Stack.init with pool := k.pool, hppUsed := k.hppUsed, retired := k.retired, ue := k.ue })
      s.ms.stackTab
    ports := tblMap (fun _ => OptPort.init) (fun _ o =>
      { OptPort.init with txRet := o.txRet, rxRet := o.rxRet, txLane := o.txLane, rxLane := o.rxLane, txMap := o.txMap, rxMap := o.rxMap })
      s.optics.ports
    banks := tblMap Bank.init (fun n b => { Bank.init n with st := b.st, group := b.group }) s.optics.banks
    sheaves := tblMap (fun _ => Sheaf.init) (fun _ x =>
      { Sheaf.init with spareV := x.spareV, spareU := x.spareU }) s.shf.sheaves
    zones := tblMap (fun _ => none) (fun _ z => z.map (fun z => { z with temp := 0, sens := [], broken := 0 })) s.thm.zones
    dies := tblMap (fun _ => PwrDie.init) (fun _ d => { PwrDie.init with hours := d.hours }) s.pwr.dies }
/-- A write of the inventory record ends; one that falls due during a CAL_WRITE waits for its end (R482). -/
def inventoryWrite (ok : Bool) (s : State) : State :=
  if !s.inv.dirty || s.flash.writing.isSome then s
  else if ok then { s with inv := { s.inv with dirty := false, seqn := satInc s.inv.seqn, saved := recordOf s } }
  else event s .inv 4

/-! The rows of the table. -/

/-- TILE_FAULT (R459). -/
def execTileFault (e cause : Nat) (s : State) : Host.Outcome State Fault Refusal := onFabric (tileFaults e cause) s
/-- TILE_SELFTEST_DONE (R459). -/
def execTileSelftestDone (e : Nat) (cols : List Nat) (other : Bool) (s : State) : Host.Outcome State Fault Refusal :=
  run s (selftestEnds e cols other)
/-- SPARE_TILE_CHECK_DONE (R459). -/
def execSpareTileCheckDone (e : Nat) (ok : Bool) (s : State) : Host.Outcome State Fault Refusal := run s (spareChecked e ok)
/-- SRAM_ROW_REPLACE (R461): the spare row takes the corrected contents, whichever row it replaces. -/
def execSramRowReplace (t bank _row : Nat) (s : State) : Host.Outcome State Fault Refusal := run s (rowReplace t bank)
/-- INVENTORY_WRITE (R457). -/
def execInventoryWrite (ok : Bool) (s : State) : Host.Outcome State Fault Refusal := run s (inventoryWrite ok)

end Sys2Proof.Machine
end

