-- ==== Sys2Proof/Machine/Lease.lean ====
section
/-!
DEFINITION. Leases, fences and the reclaim (R411 to R425), and descriptors that become eligible at a beat (R57).
-/

namespace Sys2Proof.Machine

/-! Any descriptor at the front of a queue. -/

/-- What an opcode adds to the start of a descriptor: its check, its waits, its action, what follows a refusal. -/
structure DescOp where
  check : State → QTab → List Byte → DCheck
  waits : State → List Byte → Bool
  act   : State → Nat → List Byte → State
  bad   : State → State := fun s => s
  early : Option (State → Nat → List Byte → State) := none

/-- The opcodes of Table 20-7. -/
def descOp (op : Nat) : DescOp :=
  if op = 0x00 then { check := nopCheck, waits := noWait, act := doneNow }
  else if op = 0x01 then { check := copyCheck, waits := noWait, act := copyStart }
  else if op = 0x10 then { check := loadCheck, waits := loadWaits, act := loadStart }
  else if op = 0x11 then { check := resetCheck, waits := resetWaits, act := resetAct }
  else if op = 0x12 then { check := startCheck, waits := startWaits, act := startAct }
  else if op = 0x13 then { check := hintCheck, waits := noWait, act := hintAct }
  else if op = 0x30 then { check := bindCheck, waits := noWait, act := bindAct }
  else if op = 0x31 then { check := unbindCheck, waits := slotWaits, act := unbindAct }
  else if op = 0x32 then { check := patchCheck, waits := slotWaits, act := patchAct }
  else if op = 0x33 then { check := decodeCheck, waits := decodeWaits, act := decodeAct, early := some decodeTake }
  else if op = 0x34 then { check := poolCheck, waits := poolWaits, act := poolAct }
  else if op = 0x35 then { check := flushCheck, waits := noWait, act := flushAct }
  else if op = 0x40 then { check := setupCheck, waits := noWait, act := fun s k d => complete (cktInstall s d) k stDone 0, bad := setupRefused }
  else if op = 0x41 then { check := teardownCheck, waits := noWait, act := fun s k d => complete (cktRemove s d) k stDone 0 }
  else if op = 0x42 then { check := mcCheck, waits := noWait, act := mcStart }
  else if op = 0x50 then { check := rmtCheck false, waits := noWait, act := rmtStart 1 }
  else if op = 0x51 then { check := rmtCheck true, waits := noWait, act := rmtStart 0 }
  else if op = 0x52 then { check := atomCheck, waits := noWait, act := atomStart }
  else if op = 0x60 then { check := calCheck, waits := calWaits, act := calAct }
  else { check := fun _ _ _ => ⟨false, [], []⟩, waits := noWait, act := fun s _ _ => s }

/-- One attempt to start the descriptor at the front of queue `q`, whatever its opcode. -/
def startFront (s : State) (q : Nat) : State :=
  match frontReady s q with
  | none => s
  | some d => let o := descOp (dOp d); startDesc (dOp d) o.check o.waits o.act s q o.bad o.early
/-- The front descriptor of queue `q`, held by NOT_BEFORE_BEAT, has become eligible. -/
def notBefore (q : Nat) (s : State) : State :=
  match (quGet s q).got with
  | d :: _ => if dNat d 8 6 ≠ 0 ∧ beatReached s d = true then afterStart (startFront s q) q else s
  | [] => s

/-! Work that a lapse or a cut-off ends (R397, R414, R423). -/

/-- Descriptors of queue `q` that have not started complete with the code that cuts them, while there is room. -/
def cutQueue (s : State) (q : Nat) : Nat → State
  | 0 => s
  | n + 1 =>
    if (cutCodes s (quGet s q)).isEmpty || (frontReady s q).isNone then s
    else cutQueue (startFront s q) q n
/-- The same of every queue. -/
def cutQueues (s : State) : State := each (s.hif.q.map (fun e => e.1)) s (fun s q => cutQueue s q (quGet s q).got.length)
/-- A tiller that runs, or that the debug port halts, enters QUIET (Table 4-2). -/
def goQuiet (code : Byte) (s : State) (e : Nat) : State :=
  let g := engGet s e
  if g.st = .running ∨ g.st = .halted then
    engSettle (engPut s e { g.discard with st := .quiet, cutBy := code, ending := false, single := false }) e
  else if g.st = .quiet then engPut s e { g with cutBy := pickStatus [g.cutBy, code] }
  else s
/-- The operations of fabric instructions that are not over hear the code that cuts them (R145). -/
def cutOps (code : Byte) (s : State) : State :=
  { s with rmt := { s.rmt with ops := s.rmt.ops.map (fun o => match o.owner with
    | .instr _ _ => if o.isOver then o else { o with codes := o.codes ++ [code] }
    | _ => o) } }
/-- Is a packet that waits at an arbiter kept from it: one that is no answer, and after a cut-off no mirror write (R414, R423)?
(DEDUCED, log entry 149) -/
def stopsAt (code : Byte) (i : Inj) : Bool := i.r != 70 && !(code == stReclaimed && i.r == 72)
/-- The packets that have not been injected are not any more: their requests fail, and so do the journal records and the multicast writes
that they are part of. (DEDUCED, log entry 149) -/
def cutParked (code : Byte) (s : State) : State :=
  each (List.range (portsOf s)) s (fun s p =>
    let x := portGet s p
    let gone := (x.inj ++ x.stall).filter (fun i => i.o.isNone && stopsAt code i)
    each gone (failParked s p (stopsAt code) code) (fun s i =>
      if i.pkt.ptype = 7 then journalLost s i.pkt.aux (i.pkt.offset.setWidth 32) code
      else match outFind s i.pkt.tag.toNat with
        | some o => if i.pkt.mcast then settleOut s o code 0 else s
        | none => s))
/-- Started descriptors stop with a code, and those that wait for host memory or for the homes complete; one whose CAL_WRITE has erased the
flash runs to its end (R482). (DEDUCED, log entry 102) -/
def cutStarted (code : Byte) (s : State) : State :=
  let s := { s with hif := { s.hif with started := s.hif.started.map (fun d =>
    if d.wait = .flash then d else { d with codes := d.codes ++ [code] }) } }
  let s := cutParked code (cutOps code s)
  let s := each s.seqs.steps s (fun s x => if x.begun || x.front.isSome then s else stepFail s x ⟨[code], []⟩)
  each (s.hif.started.filter (fun d => d.wait == .hostRead || d.wait == .writes)) s (fun s d => completeMet s d.id .none 0)
/-- The entries that have unsent ranges break (R408). -/
def cutRanges (code : Byte) (s : State) : State :=
  each ((s.mir.ranges.filter (fun r => !r.sent)).map (fun r => r.ent)) s (fun s n => mirBroken s n code)

/-! Leases (R411 to R414). -/

/-- The lease lapses: the chip goes quiet. -/
def lapse (s : State) : State :=
  let s := event { s with lease := { s.lease with st := 2 } } .mgt 0
  cutQueues (cutRanges stLease (cutStarted stLease (each (List.range 64) s (goQuiet stLease))))
/-- The expiry beat of a lease in force has come; a reclaim deadline due in the same beat comes first (R58, R425). -/
def leaseExpires (s : State) : State :=
  if s.lease.st = 1 ∧ s.lease.expiry.toNat ≤ s.beat.now.toNat
      ∧ ¬(s.lease.phase = 1 ∧ s.lease.armedD.toNat ≤ s.beat.now.toNat) then lapse s
  else s
/-- Is a reclaim in progress? -/
def reclaiming (s : State) : Bool := decide (1 ≤ s.lease.phase.toNat ∧ s.lease.phase.toNat ≤ 5)
/-- MGT_LEASE_RENEW_SEQ (R411, R476). An expiry that has passed is a miss, and the chip goes quiet at once (Table 3-4). -/
def renew (path : RegPath) (sq : W32) (s : State) : State :=
  if path ≠ .mgmt then s
  else if !s.lease.lastSeq.ult sq || reclaiming s || s.boot.stage != 13 then event s .mgt 1
  else
    let b := if s.lease.renewBeat = 0 then s.beat.now + s.lease.len.setWidth 64 else s.lease.renewBeat
    let s := { s with lease := { s.lease with expiry := b, lastSeq := sq, st := 1 } }
    if b.toNat ≤ s.beat.now.toNat then lapse (lateEvent s 0 b.toNat) else s

/-! Fences (R365, R415 to R417). -/

/-- FAB_FENCE_CMD ADD: outstanding requests to the chip fail at once; the own number makes the lease lapse.
(DEDUCED, log entry 103) -/
def fenceAdd (path : RegPath) (chip : Nat) (s : State) : State :=
  if path ≠ .mgmt ∨ 65536 ≤ chip then s
  else
    let s := { s with fence := { s.fence with chips := insertAsc chip s.fence.chips } }
    let s := failWhere s (fun o => o.dst.toNat == chip && o.want == 0) stFenced
    if chip = s.rt.chip.toNat ∧ s.lease.st ≠ 2 then lapse s else s
/-- FAB_FENCE_CMD REMOVE. -/
def fenceRemove (path : RegPath) (chip : Nat) (s : State) : State :=
  if path ≠ .mgmt then s else { s with fence := { s.fence with chips := s.fence.chips.filter (fun c => c != chip) } }
/-- FAB_FENCE_CMD CLEAR_ALL. -/
def fenceClear (path : RegPath) (s : State) : State :=
  if path ≠ .mgmt then s else { s with fence := { s.fence with chips := [] } }

/-! Reclaim (R422 to R424). -/

/-- The beats of 60 s at the period in use. -/
def reclaimLimit (s : State) : Nat := 60000000000 / (256 * 2 ^ s.beat.period.toNat)
/-- MGT_RECLAIM_CMD GO. Each queue that is ACTIVE takes its producer index as its snapshot; a REBUILD under way is lost (R425).
(DEDUCED, log entry 100) -/
def reclaimGo (path : RegPath) (s : State) : State :=
  let d := s.lease.deadline
  if path ≠ .mgmt then s
  else if d.toNat < s.beat.now.toNat + 2 ∨ s.beat.now.toNat + reclaimLimit s < d.toNat ∨ s.boot.stage ≠ 13
      ∨ (2 ≤ s.lease.phase.toNat ∧ s.lease.phase.toNat ≤ 5) ∨ (s.lease.phase = 1 ∧ s.lease.armedD.toNat ≤ d.toNat) then event s .mgt 4
  else if s.lease.phase = 1 then { s with lease := { s.lease with armedD := d } }
  else
    let s := event { s with lease := { s.lease with armedD := d, phase := 1, cut := false } } .mgt 2
    let s := { s with hif := { s.hif with q := tblMap (fun _ => Queue.init) (fun _ x =>
      { x with snap := if x.st = .active then some x.pi else none }) s.hif.q } }
    cutQueues (each (List.range 64) s (fun s n => if (mirGet s n).st = 4 then mirLost s n stReclaimed else s))

/-- Has every descriptor of queue `q` up to its snapshot its record? -/
def snapDone (s : State) (q : Nat) : Bool :=
  !(s.hif.started.any (fun d => d.q == some q)) && (match (quGet s q).snap with
    | some n => decide ((quGet s q).ci.toNat = n.toNat) || decide (((quGet s q).ci - n).toNat < 2 ^ 31)
    | none => true)
/-- Are all engines STOPPED or FAULTED? -/
def enginesRest (s : State) : Bool := (List.range 64).all (fun e => (engGet s e).st == .stopped || (engGet s e).st == .faulted)
/-- The next phase. -/
def phase (s : State) (p : BitVec 3) : State := { s with lease := { s.lease with phase := p } }
/-- DRAIN ends: every descriptor up to the snapshots has its record and the engines rest. (DEDUCED, log entry 101) -/
def drainEnd (s : State) : State :=
  if s.lease.phase = 1 ∧ (s.hif.q.all (fun e => snapDone s e.1)) = true ∧ enginesRest s = true then phase s 3 else s
/-- The deadline comes first: CUTOFF. -/
def deadline (s : State) : State :=
  if s.lease.phase = 1 ∧ s.lease.armedD.toNat ≤ s.beat.now.toNat then
    let s := { s with lease := { s.lease with phase := 2, cut := true } }
    cutQueues (decideCommits (cutStarted stReclaimed (each (List.range 64) s (goQuiet stReclaimed))) stReclaimed)
  else s
/-- CUTOFF ends: the engines rest and every record is written. -/
def cutoffEnd (s : State) : State :=
  if s.lease.phase = 2 ∧ enginesRest s = true ∧ s.hif.started.isEmpty = true
      ∧ (s.hif.q.all (fun e => e.2.st != .active || e.2.got.isEmpty)) = true then phase s 3
  else s
/-- Has the mirror sender anything left? -/
def mirrorBusy (s : State) : Bool :=
  !s.mir.ranges.isEmpty || s.rmt.ops.any (fun o => match o.owner with
    | Owner.range _ _ => true
    | Owner.resync _ => true
    | Owner.commit _ _ _ => true
    | _ => false)
/-- FLUSH ends. -/
def flushEnd (s : State) : State := if s.lease.phase = 3 ∧ mirrorBusy s = false then phase s 4 else s
/-- SCRUB: memory, tillers and sequence slots zeroed, recorded units retired, die caches invalidated, tiles tested (R277, R458).
(DEDUCED, log entry 106) -/
def scrub (tests : List (Nat × List Nat × Bool)) (s : State) : State :=
  let s := each (List.range (stacksOf s)) s (fun s j => if (stackGet s j).lost then s else retireRecorded s j)
  let s := { s with ms := { s.ms with bad := [], parked := [] } }
  let s := memZero (memZero s 0 (regionsOf s * 2 ^ 30)) (winBase 0) (winBase 64)
  let s := invalidate s (fun _ => true)
  let s := each (List.range 64) s (fun s e => engMod s e (fun g => { g.zeroed with ctrs := g.ctrs }))
  boundary tests { s with seqs := { s.seqs with slots := [], steps := [] } }
/-- SCRUB ends and CLEAR begins. -/
def scrubEnd (tests : List (Nat × List Nat × Bool)) (s : State) : State := if s.lease.phase = 4 then phase (scrub tests s) 5 else s
/-- CLEAR (R424). -/
def clearTables (s : State) : State :=
  let old := s.rt.slice
  let s := each ((List.range 256).filter (fun n => let c := cktGet s n; c.st != 0 && c.slice == old)) s cktFree
  let s := evPut s .seq 0
  { s with
    rt := { s.rt with slice := 0, repro := false, seedSlice := 0, rankBase := 0, rankCount := 0, mcBase := 0, ranks := [], groups := [] }
    rmt := { s.rmt with rgn := [] }
    mir := { s.mir with committed := 0, ents := [], ranges := [], commits := [] }
    fence := { s.fence with chips := [] }
    ms := { s.ms with place := [], drains := [] }
    seqs := .init }
/-- CLEAR ends: READY, `usec` microseconds after GO. -/
def clearEnd (usec : Nat) (s : State) : State :=
  if s.lease.phase = 5 then
    let s := clearTables s
    let s := { s with hif := { s.hif with q := tblMap (fun _ => Queue.init) (fun _ x => { x with snap := none }) s.hif.q } }
    event { s with lease := { s.lease with phase := 6, st := 0, time := BitVec.ofNat 32 (min usec (2 ^ 32 - 1)) } } .mgt 3
  else s

/-! The rows of the table. -/

/-- DESC_NOT_BEFORE (R57). -/
def execDescNotBefore (q : Nat) (s : State) : Host.Outcome State Fault Refusal := onFabric (notBefore q) s
/-- LEASE_EXPIRY (R414). -/
def execLeaseExpiry (s : State) : Host.Outcome State Fault Refusal := onFabric leaseExpires s
/-- RECLAIM_DEADLINE (R423). -/
def execReclaimDeadline (s : State) : Host.Outcome State Fault Refusal := onFabric deadline s
/-- LEASE_RENEW (R411). -/
def execLeaseRenew (path : RegPath) (sq : W32) (s : State) : Host.Outcome State Fault Refusal := onFabric (fwOnly (renew path sq)) s
/-- ADD (R415). -/
def execAdd (path : RegPath) (chip : Nat) (s : State) : Host.Outcome State Fault Refusal := onFabric (fwOnly (fenceAdd path chip)) s
/-- REMOVE (R415). -/
def execRemove (path : RegPath) (chip : Nat) (s : State) : Host.Outcome State Fault Refusal := run s (fwOnly (fenceRemove path chip))
/-- CLEAR_ALL (R415). -/
def execClearAll (path : RegPath) (s : State) : Host.Outcome State Fault Refusal := run s (fwOnly (fenceClear path))
/-- GO (R422). -/
def execGo (path : RegPath) (s : State) : Host.Outcome State Fault Refusal := onFabric (fwOnly (reclaimGo path)) s
/-- RECLAIM_DRAIN_END (R423). -/
def execReclaimDrainEnd (s : State) : Host.Outcome State Fault Refusal := run s drainEnd
/-- RECLAIM_CUTOFF_END (R423). -/
def execReclaimCutoffEnd (s : State) : Host.Outcome State Fault Refusal := run s cutoffEnd
/-- RECLAIM_FLUSH_END (R423). -/
def execReclaimFlushEnd (s : State) : Host.Outcome State Fault Refusal := run s flushEnd
/-- RECLAIM_SCRUB_END (R423). -/
def execReclaimScrubEnd (tests : List (Nat × List Nat × Bool)) (s : State) : Host.Outcome State Fault Refusal := run s (scrubEnd tests)
/-- RECLAIM_CLEAR_END (R424). -/
def execReclaimClearEnd (usec : Nat) (s : State) : Host.Outcome State Fault Refusal := onFabric (clearEnd usec) s

end Sys2Proof.Machine
end

