-- ==== Sys2Proof/Machine/Power.lean ====
section
/-!
DEFINITION. Power and clock (R429 to R440, R449 to R451), temperature (R441 to R445). Power is in W, shares in mW, temperature in steps
of 0.125 °C.
-/

namespace Sys2Proof.Machine

/-- Sets compute die `d`. -/
def diePut (s : State) (d : Nat) (x : PwrDie) : State :=
  { s with pwr := { s.pwr with dies := tblSet (fun _ => PwrDie.init) s.pwr.dies d x } }
/-- CMD_ERR of PWR_EVENTS. -/
def pwrCmdErr (s : State) : State := event s .pwr 5

/-! Clock steps (R432 to R434). -/

/-- The ageing guardband of die `d` in mV. -/
def guardband (s : State) (d : Nat) : Nat := if s.boot.sectOk.getLsbD 0 then min 25 (5 * ((dieGet s d).hours / 8760)) else 0
/-- The highest step that needs no more than 0.90 V, at least the lowest step. -/
def topStep (s : State) (d : Nat) : Nat :=
  let fits (n : Nat) : Bool := decide (Config.stepMillivolt (s.boot.sectOk.getLsbD 0) d n + guardband s d ≤ 900)
  (((List.range 100).map (fun i => 13 + i)).find? (fun n => !fits n)).getD 113 - 1
/-- F_MAX as a step: boost needs BOOST_EN, a voltage table, and no pace code followed. -/
def fMax (s : State) (d : Nat) : Nat :=
  min (dieGet s d).gbLimit (if s.pwr.ctrl.getLsbD 0 && s.boot.sectOk.getLsbD 0 && s.pwr.followed == 0 then 112 else 96)
/-- The pace ceiling as a step (R450). (DEDUCED, log entry 110) -/
def paceCeiling (s : State) : Nat :=
  if s.pwr.ctrl.getLsbD 1 && s.pwr.followed != 0 then (16 - s.pwr.followed.toNat) * 96 / 16 else 112
/-- Is the power of a die, now `p`, as far from what it was within the last 100 µs as OPT_SLEW_LIMIT lets it move, up (`up`) or down
(R254)? Thermal throttling and droop override the limit. (DEDUCED, log entry 109) -/
def slewHolds (s : State) (x : PwrDie) (p : Nat) (up : Bool) : Bool :=
  !x.thrott && !x.droop && x.hist.any (fun q => if up then decide (q + s.optics.slew.toNat ≤ p) else decide (p + s.optics.slew.toNat ≤ q))
/-- One comparison of P_d, the mean of the last 4 µs in `powers`, with A_d: the clock step of die `d`. `now` is what each die draws (R254). How many of up to 8 steps a fall takes is left open.
(DESIGN CHOICE, log entry 108) -/
def clockDie (powers now : List Nat) (s : State) (d : Nat) : State :=
  let x := dieGet s d
  let p := powers.getD d 0
  let q := now.getD d 0
  let a := x.allowed
  let n := x.step.toNat
  let top := max 12 (min (fMax s d) (paceCeiling s))
  let above := a != 0 && decide (a < 1000 * p)
  let (f, s) := if above then drawFree s else (0, s)
  let want :=
    if above then max 12 (min top n - (1 + f.toNat % 8))
    else if top < n then top
    else if a ≠ 0 ∧ 100000 * p < 95 * a ∧ n < top ∧ (n < 96 ∨ tblGet (fun _ => 0) s.thm.dies d < 720) then n + 1
    else n
  let slew := (decide (n < want) && slewHolds s x q true) || (decide (want < n) && slewHolds s x q false)
  let m := if slew then n else want
  let cnt := if above && n == 12 then x.above + 1 else 0
  let gate := x.gated || decide (10 ≤ cnt)
  let gate' := gate && !(decide (1000 * p < a))
  let why : BitVec 3 := if x.droop then 3 else if slew then 2 else if above then (if x.thrott then 4 else 1)
    else if m = paceCeiling s ∧ paceCeiling s ≤ fMax s d then 5 else 0
  let new := gate' && !x.gated
  let s := diePut s d { x with power := BitVec.ofNat 10 p, step := BitVec.ofNat 7 m, above := cnt, gated := gate', limiter := why,
                               gates := if new then satInc x.gates else x.gates, hist := (q :: x.hist).take 100 }
  if new then event s .pwr 1 d else s
/-- The 1 µs tick: every die, the package power, and CAP_UNMET after 10 ms above the cap with every die at step 12. -/
def clockTick (powers : List Nat) (pkg : Nat) (now : List Nat) (s : State) : State :=
  let s := each (List.range 4) s (clockDie powers now)
  let low := (List.range 4).all (fun d => (dieGet s d).step == 12)
  let n := if low && decide (s.pwr.cap.toNat < pkg) then s.pwr.unmet + 1 else 0
  let s := { s with pwr := { s.pwr with pkg := BitVec.ofNat 12 pkg, unmet := n } }
  if n = 10000 then event s .pwr 0 0 0 pkg else s

/-! Phases and shares (R436 to R439). -/

/-- The governing phase (R438). -/
def governing (s : State) : Nat :=
  (s.pwr.hints.filter (fun h => h.on)).foldl (fun (b : Nat × Nat) h =>
    if b.2 < h.start.toNat + 1 ∨ (b.2 = h.start.toNat + 1 ∧ b.1 < h.phase) then (h.phase, h.start.toNat + 1) else b) (0, 0) |>.1
/-- PWR_PHASE_NOW follows the hints. -/
def phaseNow (s : State) : State := { s with pwr := { s.pwr with phaseNow := BitVec.ofNat 8 (governing s) } }
/-- Shares raised to 60 W, the others scaled down in proportion so that all sum to the budget, as often as a share falls below. -/
def raise60 (budget : Nat) : Nat → List Nat → List Nat
  | 0, l => l
  | f + 1, l =>
    if l.all (fun x => decide (60000 ≤ x)) then l
    else
      let low := l.filter (fun x => decide (x ≤ 60000))
      let rest := (l.filter (fun x => decide (60000 < x))).foldl (fun a b => a + b) 0
      let left := budget - 60000 * low.length
      raise60 budget f (l.map (fun x => if x ≤ 60000 then 60000 else x * left / max 1 rest))
/-- The shares of the dies in mW for a budget in mW. (DEDUCED, log entry 107) -/
def sharesOf (s : State) (b : Nat) : List Nat :=
  let g := governing s
  let v := phaseGet s g
  let m := (List.range 4).map (fun d => 1000 * phaseMean v d)
  let sum := m.foldl (fun a x => a + x) 0
  if b < 240000 then [60000, 60000, 60000, 60000]
  else
    raise60 b 4 (if g = 0 ∨ phaseCount v < 2 then List.replicate 4 (b / 4)
      else if sum ≤ b then m.map (fun x => x + (b - sum) / 4)
      else m.map (fun x => x * b / sum))
/-- L_d for a share (Table 22-4). -/
def thermalLimit (share : Nat) (t : Int) : Nat :=
  if t ≤ 760 then share else share * (max 32 (160 - (t - 760))).toNat / 160
/-- A_d follows the share and the temperature. -/
def allow (s : State) (d : Nat) : State :=
  let x := dieGet s d
  diePut s d { x with allowed := min x.share (thermalLimit x.share x.temp) }
/-- The 10 µs allocation; `nonCompute` is the non-compute power over the last 100 µs. -/
def shareTick (nonCompute : Nat) (s : State) : State :=
  let l := sharesOf s (1000 * (s.pwr.cap.toNat - nonCompute))
  each (List.range 4) s (fun s d => allow (diePut s d { dieGet s d with share := l.getD d 0 }) d)

/-- The hint for phase `k`, if one is armed or applies. -/
def hintOf (s : State) (k : Nat) : Option Hint := s.pwr.hints.find? (fun h => h.phase == k)
/-- Changes the hint for phase `k`. -/
def hintMod (s : State) (k : Nat) (f : Hint → Hint) : State :=
  { s with pwr := { s.pwr with hints := s.pwr.hints.map (fun h => if h.phase = k then f h else h) } }
/-- The start beat of a hint has come, after what R58 puts before it. -/
def hintStart (k : Nat) (s : State) : State :=
  match hintOf s k with
  | some h =>
    if h.start.toNat ≤ s.beat.now.toNat ∧ cutDue s = false then phaseNow (hintMod s k (fun h => { h with on := true, ramp := 0 })) else s
  | none => s
/-- M moved by an eighth of the way to a mean, to the nearest watt; between two equally near ones the spec does not choose. -/
def foldMean (m p : Nat) (up : Bool) : Nat :=
  let t : Int := 8 * m + ((p : Int) - m)
  let q := (t / 8).toNat
  let r := (t % 8).toNat
  min 1023 (if r < 4 then q else if 4 < r then q + 1 else if up then q + 1 else q)
/-- A hint ends; one that applied for its whole length is folded into the phase table with the dies' mean powers. -/
def hintEnd (k : Nat) (means : List Nat) (s : State) : State :=
  match hintOf s k with
  | none => s
  | some h =>
    if !h.on || decide (s.beat.now.toNat < h.start.toNat + h.len) then s
    else
      let s := { s with pwr := { s.pwr with hints := s.pwr.hints.filter (fun x => x.phase != k) } }
      let v := phaseGet s k
      if k = 0 ∨ h.whole = false then phaseNow s
      else
        let (f, s) := drawFree s
        let put (w : W64) (d : Nat) : W64 :=
          let p := means.getD d 0
          setFld w (10 * d) 10 (if phaseCount v = 0 then min 1023 p else foldMean (phaseMean v d) p (f.getLsbD d))
        let w := setFld ((List.range 4).foldl put v) 40 8 (min 255 (phaseCount v + 1))
        phaseNow { s with pwr := { s.pwr with phases := tblSet (fun _ => 0) s.pwr.phases k w } }
/-- The lead beat of a hint of a known phase has come on some dies: their power is raised (R439). -/
def rampStart (k : Nat) (s : State) : State :=
  match hintOf s k with
  | some h => if h.on then s else hintMod s k (fun h => { h with ramp := rampMask s h })
  | none => s

/-! Droop and ageing (R434, R440). -/

/-- The core rail of die `d` has drooped: its clock is stretched. -/
def droopOn (d : Nat) (s : State) : State :=
  let x := dieGet s d
  if 4 ≤ d ∨ x.droop = true then s else event (diePut s d { x with droop := true, droops := satInc x.droops, limiter := 3 }) .pwr 3 d
/-- The clock is restored. -/
def droopOff (d : Nat) (s : State) : State :=
  let x := dieGet s d
  if x.droop then diePut s d { x with droop := false, limiter := 0 } else s
/-- The highest step follows the guardband; GB_LIMIT where steps are removed. -/
def gbCheck (s : State) (d : Nat) : State :=
  let x := dieGet s d
  let n := topStep s d
  if n < x.gbLimit then event (diePut s d { x with gbLimit := n }) .pwr 4 d 0 n else s
/-- A powered hour of die `d` ends; `hot` says that its temperature reached 95 °C in it. The passes of its tiles age with it (R460).
(DEDUCED, log entry 114) -/
def ageHour (d : Nat) (hot : Bool) (s : State) : State :=
  if 4 ≤ d then s
  else
    let x := dieGet s d
    let s := gbCheck (diePut s d { x with hours := x.hours + (if hot then 2 else 1) }) d
    let age (s : State) (t : Nat) : State :=
      let y := tileGet s t
      if y.passes.isEmpty then s else tilePut s t { y with passes := (y.passes.map (fun n => n + 1)).filter (fun n => decide (n < 24)) }
    let s := each ((List.range 18).map (fun i => 18 * d + i)) s age
    { s with inv := { s.inv with dirty := true } }

/-- PWR_CAP. -/
def capWrite (v : W32) (s : State) : State :=
  let n := fld v 0 12
  if n < 500 ∨ 3300 < n then pwrCmdErr s else { s with pwr := { s.pwr with cap := BitVec.ofNat 12 n } }
/-- c_own has been non-zero for 1 s: told once in an episode (R451). -/
def pacePersist (s : State) : State :=
  if s.pwr.own ≠ 0 ∧ s.pwr.ptold = false then event { s with pwr := { s.pwr with ptold := true } } .pwr 2 0 0 s.pwr.own.toNat else s

/-! Temperature (R441 to R445). -/

/-- CMD_ERR of THM_EVENTS. -/
def thmCmdErr (s : State) : State := event s .thm 6
/-- The key of the die that zone `z` lies on: compute die d, 16 + memory-side die, 32 + I/O die, 48 + sheaf die. -/
def dieKey (z : Nat) : Nat := if z < 32 then z / 8 else if z < 48 then 16 + (z - 32) else if z < 64 then 32 + (z - 48) / 2 else 48 + (z - 64) / 2
/-- Is zone `z` fitted? -/
def zoneOk (s : State) (z : Nat) : Bool :=
  decide (z < 32) || (decide (32 ≤ z) && decide (z < 32 + stacksOf s)) || (decide (48 ≤ z) && decide (z < 48 + 2 * ioDiesOf s))
    || (decide (64 ≤ z) && decide (z < 72))
/-- Sets zone `z`. -/
def zonePut (s : State) (z : Nat) (x : Zone) : State :=
  { s with thm := { s.thm with zones := tblSet (fun _ => none) s.thm.zones z (some x) } }
/-- A sensor from which nothing was read. -/
def Sensor.none : Sensor := ⟨0, 0, 0, 0, 0⟩
/-- Sensor `k` of a zone. -/
def Zone.sensor (x : Zone) (k : Nat) : Sensor := tblGet (fun _ => Sensor.none) x.sens k
/-- The reading that a sensor counts with: 105 °C if it is broken and its die is not in MODEL mode (`raw`, R443, Table 22-5). -/
def Zone.reading (x : Zone) (raw : Bool) (k : Nat) : Int := if x.broken.getLsbD k && !raw then 840 else (x.sensor k).last
/-- The mode of the die with key `k`; without section 2 of the store every mode acts as SENSORS (R442, R478). -/
def dieMode (s : State) (k : Nat) : Nat := if s.boot.sectOk.getLsbD 1 then fld s.thm.ctrl (2 * (k / 16)) 2 else 0
/-- The greatest of a list. -/
def maxInt : List Int → Int
  | [] => 0
  | a :: l => l.foldl max a
/-- What one sample of a sensor adds to what is followed of it: `others` are the readings of the zone's other active sensors. -/
def Sensor.step (y : Sensor) (v : Int) (others : List Int) (p : Nat) : Sensor :=
  let off := if !others.isEmpty && others.all (fun o => decide (120 < (v - o).natAbs)) then y.off + 1 else 0
  if y.same ≠ 0 ∧ y.last = v then ⟨v, off, y.same + 1, min y.pmin p, max y.pmax p⟩ else ⟨v, off, 1, p, p⟩
/-- Is a sensor broken after a sample (R443)? Samples come every 10 µs. -/
def Sensor.bad (y : Sensor) : Bool :=
  decide (y.last < -320) || decide (1200 < y.last) || decide (100000 ≤ y.off) || (decide (1000000 ≤ y.same) && decide (50 < y.pmax - y.pmin))
/-- One zone is sampled. -/
def sampleZone (readings : List (Nat × Nat × Int)) (powers : List (Nat × Nat)) (s : State) (z : Nat) : State :=
  let x := zoneGet s z
  let mine := readings.filter (fun r => r.1 == z && x.list.contains r.2.1)
  if mine.isEmpty then s
  else
    let val (k : Nat) : Int := ((mine.find? (fun r => r.2.1 == k)).map (fun r => r.2.2)).getD (x.sensor k).last
    let p := ((powers.find? (fun q => q.1 == dieKey z)).map (fun q => q.2)).getD 0
    let follow (t : Tbl Sensor) (r : Nat × Nat × Int) : Tbl Sensor :=
      tblSet (fun _ => Sensor.none) t r.2.1 ((x.sensor r.2.1).step r.2.2 ((x.list.filter (fun k => k != r.2.1)).map val) p)
    let x' := { x with sens := mine.foldl follow x.sens }
    let new := (mine.map (fun r => r.2.1)).filter (fun k => (x'.sensor k).bad && !x.broken.getLsbD k)
    let x' := { x' with broken := new.foldl (fun b k => putBit b k true) x'.broken }
    let x' := { x' with temp := maxInt (x'.list.map (x'.reading (dieMode s (dieKey z) == 1))) }
    each new (zonePut s z x') (fun s k => event s .thm 2 z k)
/-- The zones of a die by its key. -/
def dieZones (k : Nat) : List Nat := (List.range 72).filter (fun z => dieKey z == k)
/-- The temperature of a die by its mode (R442). -/
def dieTemp (s : State) (k : Nat) : Int :=
  let mode := dieMode s k
  let t := maxInt ((dieZones k).map (fun z => (zoneGet s z).temp))
  let m := tblGet (fun _ => 0) s.thm.models k
  if mode = 0 then t else if mode = 1 then m else max t m
/-- The keys of the dies whose temperature governs compute die `d`. -/
def governedBy (s : State) (d : Nat) : List Nat :=
  [d, 48 + d] ++ (dieStacks s d).map (fun j => 16 + j) ++ ((List.range (ioDiesOf s)).filter (fun i => ioDie s i == d)).map (fun i => 32 + i)
/-- The die keys of the package. -/
def dieKeys (s : State) : List Nat :=
  List.range 4 ++ (List.range (stacksOf s)).map (fun j => 16 + j) ++ (List.range (ioDiesOf s)).map (fun i => 32 + i)
    ++ (List.range 4).map (fun d => 48 + d)
/-- T_d of compute die `d` and throttling. -/
def throttle (s : State) (d : Nat) : State :=
  let x := dieGet s d
  let t := maxInt ((governedBy s d).map (fun k => tblGet (fun _ => 0) s.thm.dies k))
  let hot := decide (760 < t)
  let s := allow (diePut s d { x with temp := t, thrott := hot }) d
  if hot && !x.thrott then event s .thm 0 d 0 (t.toNat) else s
/-- The temperature of an HBM stack; at 90 °C and above its grants are limited. -/
def sampleHbm (s : State) (r : Nat × Int) : State :=
  if stacksOf s ≤ r.1 then s
  else
    let k := stackGet s r.1
    let hot := decide (720 ≤ r.2)
    let s := { s with thm := { s.thm with hbm := tblSet (fun _ => 0) s.thm.hbm r.1 r.2 } }
    let s := stackPut s r.1 { k with throttle := hot }
    if hot && !k.throttle then event s .thm 1 r.1 0 r.2.toNat else s
/-- The warning for a die that falls below 10 °C in operation. (DEDUCED, log entry 111) -/
def lowWarn (s : State) (k : Nat) : State :=
  let low := decide (tblGet (fun _ => 0) s.thm.dies k < 80) && decide (13 = s.boot.stage)
  if low then
    if s.thm.low.contains k then s else event { s with thm := { s.thm with low := insertAsc k s.thm.low } } .thm 4 ((dieZones k).headD 0)
  else { s with thm := { s.thm with low := s.thm.low.filter (fun x => x != k) } }
/-- The 10 µs sample of every sensor, of the stacks and of the models; `powers` are the powers of the dies by key. -/
def thermalSample (readings : List (Nat × Nat × Int)) (hbm models : List (Nat × Int)) (powers : List (Nat × Nat)) (s : State) : State :=
  let s := each ((List.range 72).filter (zoneOk s)) s (sampleZone readings powers)
  let s := { s with thm := { s.thm with models := models.foldl (fun t m => tblSet (fun _ => 0) t m.1 m.2) s.thm.models } }
  let s := each (dieKeys s) s (fun s k => { s with thm := { s.thm with dies := tblSet (fun _ => 0) s.thm.dies k (dieTemp s k) } })
  let s := ringTemps (fun z => (zoneGet s z).temp) (each hbm s sampleHbm)
  each (List.range 4) (each (dieKeys s) s lowWarn) throttle

/-- THM_CMD RETIRE: a broken sensor leaves the zone, and a spare is to take its place (R443). -/
def retireSensor (z k : Nat) (s : State) : State :=
  let x := zoneGet s z
  if !zoneOk s z || !x.list.contains k || !x.broken.getLsbD k || decide (x.list.length ≤ 1) then thmCmdErr s
  else
    let s := zonePut s z { x with list := x.list.filter (fun i => i != k), active := x.active - 1, broken := putBit x.broken k false }
    if x.spares = 0 then exhausted (event s .thm 3 z) 8 z else s
/-- A spare sensor of the zone takes the place of a retired one. -/
def sensorSpareIn (z : Nat) (s : State) : State :=
  let x := zoneGet s z
  let full := (Zone.fitted z).active
  if !zoneOk s z || x.spares == 0 || decide (full ≤ x.active) then s
  else
    let k := full + (2 - x.spares)
    let s := consumed (zonePut s z { x with list := x.list ++ [k], active := x.active + 1, spares := x.spares - 1 }) 8 z
    if x.spares = 1 then stockLow s 8 z else s
/-- A die has been throttled for a further second: a record for the fault manager. -/
def throttlePersist (d : Nat) (mean : Int) (s : State) : State :=
  if (dieGet s d).thrott ∧ d < 4 then
    record s 5 0 (evBlock .thm) 0xFF 0 (evDetail s .thm d 0 (BitVec.ofInt 64 mean).toNat)
  else s

/-! The rows of the table. -/

/-- PWR_CLOCK_TICK (R433). -/
def execPwrClockTick (powers : List Nat) (pkg : Nat) (now : List Nat) (s : State) : Host.Outcome State Fault Refusal :=
  run s (clockTick powers pkg now)
/-- PWR_SHARE_TICK (R436). -/
def execPwrShareTick (nonCompute : Nat) (s : State) : Host.Outcome State Fault Refusal := run s (shareTick nonCompute)
/-- PHASE_HINT_START (R438). -/
def execPhaseHintStart (k : Nat) (s : State) : Host.Outcome State Fault Refusal := run s (hintStart k)
/-- PHASE_HINT_END (R437). -/
def execPhaseHintEnd (k : Nat) (means : List Nat) (s : State) : Host.Outcome State Fault Refusal := run s (hintEnd k means)
/-- PRE_RAMP_START (R439). -/
def execPreRampStart (k : Nat) (s : State) : Host.Outcome State Fault Refusal := run s (rampStart k)
/-- DROOP (R440). -/
def execDroop (d : Nat) (s : State) : Host.Outcome State Fault Refusal := run s (droopOn d)
/-- DROOP_RESTORE (R440). -/
def execDroopRestore (d : Nat) (s : State) : Host.Outcome State Fault Refusal := run s (droopOff d)
/-- CAP_WRITE (R435). -/
def execCapWrite (v : W32) (s : State) : Host.Outcome State Fault Refusal := run s (fwOnly (capWrite v))
/-- THROTTLE_PERSIST (R445). -/
def execThrottlePersist (d : Nat) (mean : Int) (s : State) : Host.Outcome State Fault Refusal := run s (throttlePersist d mean)
/-- PACE_PERSIST (R451). -/
def execPacePersist (s : State) : Host.Outcome State Fault Refusal := run s pacePersist
/-- AGEING_HOUR (R434). -/
def execAgeingHour (d : Nat) (hot : Bool) (s : State) : Host.Outcome State Fault Refusal := run s (ageHour d hot)
/-- THERMAL_SAMPLE (R429). -/
def execThermalSample (readings : List (Nat × Nat × Int)) (hbm models : List (Nat × Int)) (powers : List (Nat × Nat)) (s : State) :
    Host.Outcome State Fault Refusal := onFabric (thermalSample readings hbm models powers) s
/-- RETIRE_SENSOR (R443). -/
def execRetireSensor (z k : Nat) (s : State) : Host.Outcome State Fault Refusal := run s (fwOnly (retireSensor z k))
/-- SENSOR_SPARE_IN (R443). -/
def execSensorSpareIn (z : Nat) (s : State) : Host.Outcome State Fault Refusal := run s (sensorSpareIn z)

end Sys2Proof.Machine
end

