-- ==== Sys2Proof/Machine/Beat.lean ====
section
/-!
DEFINITION. The beat (chapter 3): boundaries, states, RESYNC, the IEEE 1588 timescale; the pace codes of a beat (R449, R450).
-/

namespace Sys2Proof.Machine

/-- The pace code of a chip whose slowest die ran at a mean of `f` kHz (R449). -/
def paceOf (f : Nat) : Nat := if 1500000 ≤ f then 0 else min 15 (cdiv (16 * (1500000 - f)) 1500000)
/-- The largest PACE heard in the beat on the ports of PWR_PACE_PORTS that are UP (R450). -/
def paceHeard (s : State) : Nat :=
  ((List.range (portsOf s)).filter (fun p => s.pwr.ports.getLsbD p && portUp s p)).foldl (fun m p => max m (pbGet s p).pace.toNat) 0
/-- The pace codes of the beat that ends; `clocks` are the mean engine clocks of the dies in kHz with pace following ignored. -/
def paceTick (clocks : List Nat) (s : State) : State :=
  let own := paceOf (clocks.foldl min 1750000)
  let c := if s.pwr.ctrl.getLsbD 1 then max s.pwr.floor.toNat (paceHeard s) else 0
  { s with pwr := { s.pwr with own := BitVec.ofNat 4 own, followed := BitVec.ofNat 4 c, ptold := s.pwr.ptold && own != 0 } }
/-- What a port heard in the beat that ends: whether it was silent, and its PACE starts over. -/
def portTick (b : PortBeat) : PortBeat :=
  { b with silent := if b.fresh || b.marker.isNone then 0 else b.silent + 1, fresh := false, pace := 0 }
/-- A beat boundary passes. (DESIGN CHOICE, log entry 157) -/
def boundaryTick (clocks : List Nat) (s : State) : State :=
  let s := paceTick clocks s
  let b := s.beat
  { s with
    beat := { b with now := b.now + 1, unseen := if b.seen then 0 else b.unseen + 1, seen := false,
                     holdLen := if b.st = .holdover then b.holdLen + 1 else b.holdLen,
                     phase := 0, acqLen := if b.st = .acquiring then b.acqLen + 1 else b.acqLen,
                     ports := tblMap (fun _ => PortBeat.init) (fun _ p => portTick p) b.ports }
    rt := { s.rt with drainLeft := s.rt.drainLeft - 1 } }

/-! States (Table 3-2). -/

/-- The chip becomes beat master: from UNSYNCED with the count of BEAT_START and the period written, otherwise keeping both.
(DEDUCED, log entry 74) -/
def becomeMaster (s : State) : State :=
  let s' := if s.beat.st = .unsynced then stepCount s s.beat.start s.beat.ctrlPeriod else s
  setHops { s' with beat := { s'.beat with st := .master } }
/-- HOLDOVER is entered. -/
def enterHoldover (s : State) : State :=
  event (setHops { s with beat := { s.beat with st := .holdover, holdLen := 0, ptpLocked := false } }) .beat 0
/-- The upstream whose count RESYNC takes: the one followed while it offers valid markers, else the best (R48, R54). -/
def resyncUpstream (s : State) : Option Nat :=
  let u := s.beat.upstream.toNat
  if !s.beat.upFixed && (s.beat.st == .locked || s.beat.st == .acquiring) && (offered s u).isSome then some u else bestUpstream s
/-- RESYNC (R54). -/
def resyncBeat (s : State) : State :=
  if s.beat.st = .master then stepCount s s.beat.start s.beat.ctrlPeriod
  else
    match resyncUpstream s with
    | none => s
    | some p =>
      if (upTime s p).isSome then
        let s := takeCount (follow s p) p
        if s.beat.st = .acquiring then s else setHops { s with beat := { s.beat with st := .locked } }
      else s
/-- BEAT_CTRL: the fields, then the change of MASTER, then RESYNC (R44, R54). (DEDUCED, log entry 145) -/
def beatCtrl (v : W32) (s : State) : State :=
  let b := s.beat
  let per := fld v 1 3
  let m := v.getLsbD 0
  let s := { s with beat := { b with ctrlMaster := m, ctrlPeriod := if per = 7 then b.ctrlPeriod else BitVec.ofNat 3 per, ptpEn := v.getLsbD 4,
                                     ptpLocked := b.ptpLocked && v.getLsbD 4,
                                     upFixed := v.getLsbD 5, upPort := BitVec.ofNat 6 (fld v 6 6) } }
  let s := if m ∧ b.st ≠ .master then becomeMaster s
    else if m = false ∧ b.st = .master then enterHoldover s else s
  if v.getLsbD 12 then resyncBeat s else s

/-- ACQUIRING ends: LOCKED once the phase error is within 5 ns, UNSYNCED where 64 beats have not brought it there.
It comes at `phase` of the beat. (DEDUCED, log entry 76) (DESIGN CHOICE, log entry 160) -/
def acquireEnd (phase : W16) (s : State) : State :=
  if s.beat.st ≠ .acquiring ∨ (lockable s.beat.offset = false ∧ s.beat.acqLen < 64) then s
  else
    let s := { s with beat := { s.beat with phase := phase } }
    if lockable s.beat.offset then setHops { s with beat := { s.beat with st := .locked, unseen := 0 } }
    else record (setHops { s with beat := { s.beat with st := .unsynced } }) 5 0 1 0xFF 0 (evDetail s .beat s.beat.upstream.toNat 0 0)
/-- The upstream has sent no valid marker for one beat, or is no port to follow any more: another port is followed, or this chip's
markers become invalid (R47, R48). -/
def upstreamTimeout (s : State) : State :=
  if s.beat.st ≠ .locked ∨ (offered s s.beat.upstream.toNat).isSome = true then s
  else
    let s := { s with beat := { s.beat with upValid := false } }
    setHops (match bestUpstream s with
      | some q => follow s q
      | none => s)
/-- No valid marker has arrived on any port for 64 beats. -/
def holdoverEnter (s : State) : State := if s.beat.st = .locked ∧ 64 ≤ s.beat.unseen then enterHoldover s else s

/-! IEEE 1588 (R56). -/

/-- What the local beat is ahead of a time of the IEEE 1588 timescale, in ns: beat n begins at BEAT_EPOCH_PTP + n × period (R56).
(DEDUCED, log entry 145) -/
def ptpError (s : State) (time : W64) : W64 :=
  s.beat.epochPtp + s.beat.now * BitVec.ofNat 64 (256 * 2 ^ s.beat.period.toNat) + BitVec.ofNat 64 (s.beat.phase.toNat * 2 / 5) - time
/-- A Sync message arrives at the master, when the timescale stands at `time`: the error that the rate slews away; `locked` says that the
servo is on the timescale. (DEDUCED, log entry 145) -/
def ptpSync (time : W64) (locked : Bool) (s : State) : State :=
  if s.beat.st = .master ∧ s.beat.ptpEn = true then { s with beat := { s.beat with ptpLocked := locked, ptpErr := ptpError s time } } else s
/-- No Sync message for 2 s. -/
def ptpLost (s : State) : State :=
  if s.beat.st = .master ∧ s.beat.ptpEn = true then event { s with beat := { s.beat with ptpLocked := false } } .beat 6 else s

/-! The rows of the table. -/

/-- BEAT_BOUNDARY (R45). -/
def execBeatBoundary (clocks : List Nat) (s : State) : Host.Outcome State Fault Refusal := run s (boundaryTick clocks)
/-- BEAT_MASTER_SET (R52): a write of BEAT_CTRL with MASTER 1. -/
def execBeatMasterSet (v : W32) (s : State) : Host.Outcome State Fault Refusal := run s (fwOnly (beatCtrl (putBit v 0 true)))
/-- BEAT_MASTER_CLEAR (R52): a write of BEAT_CTRL with MASTER 0. -/
def execBeatMasterClear (v : W32) (s : State) : Host.Outcome State Fault Refusal := run s (fwOnly (beatCtrl (putBit v 0 false)))
/-- BEAT_RESYNC (R54): a write of BEAT_CTRL with RESYNC 1. -/
def execBeatResync (v : W32) (s : State) : Host.Outcome State Fault Refusal := run s (fwOnly (beatCtrl (putBit v 12 true)))
/-- ACQUIRE_END (R52). -/
def execAcquireEnd (phase : W16) (s : State) : Host.Outcome State Fault Refusal := run s (acquireEnd phase)
/-- UPSTREAM_TIMEOUT (R48). -/
def execUpstreamTimeout (s : State) : Host.Outcome State Fault Refusal := run s upstreamTimeout
/-- HOLDOVER_ENTER (R52). -/
def execHoldoverEnter (s : State) : Host.Outcome State Fault Refusal := run s holdoverEnter
/-- PTP_SYNC_RX (R56). -/
def execPtpSyncRx (x : PtpSync) (s : State) : Host.Outcome State Fault Refusal := run s (ptpSync x.time x.locked)
/-- PTP_LOSS (R56). -/
def execPtpLoss (s : State) : Host.Outcome State Fault Refusal := run s ptpLost

end Sys2Proof.Machine
end

