-- ==== Sys2Proof/Machine/Boot.lean ====
section
/-!
DEFINITION. The board boundary and the reset kinds (R465 to R467, R529), the trip path (R446, R447), the bypass controller (R18 to R20, R307,
R308), the boot ROM (R468 to R473) and bring-up (R474 to R479).
-/

namespace Sys2Proof.Machine

/-- Does the core domain run: powered, not held in reset? -/
def coreRuns (s : State) : Bool := !s.board.held && !s.board.coreUndef

/-! The bypass switches (R18 to R20, R307, R308). -/

/-- Every enabled switch is sent to bypass; one that is moving to pass first completes its move (R20). -/
def toBypass (b : Board) : Board :=
  let go := b.bypEn &&& ~~~b.bypMoving &&& ~~~b.bypState
  { b with bypMoving := b.bypMoving ||| go, bypTarget := b.bypTarget ||| go,
           bypThen := b.bypThen ||| (b.bypEn &&& b.bypMoving &&& ~~~b.bypTarget) }
/-- A command of FAB_BYP_CMD: refused as a whole, with a record that names the lowest switch it is refused for (DEDUCED, log entry 147),
or the masked switches that are elsewhere begin to move and their ports go down. (DEDUCED, log entry 147) -/
def bypCmd (mask : Nat) (bypass : Bool) (s : State) : State :=
  let b := s.board
  let m := BitVec.ofNat 12 mask
  let no := m &&& (~~~b.bypEn ||| b.bypMoving)
  if no ≠ 0 ∨ b.holdup = false then event s .link 6 ((setBits 12 (if no = 0 then m else no).toNat).headD 0)
  else
    let go := if bypass then m &&& ~~~b.bypState else m &&& b.bypState
    let s := { s with board := { b with bypMoving := b.bypMoving ||| go,
                                        bypTarget := if bypass then b.bypTarget ||| go else b.bypTarget &&& ~~~go } }
    each (setBits 12 go.toNat) s (fun s k => each (switchPorts k) s portDown)
/-- FAB_BYP_EN: a switch that is not at rest in pass is not disabled. (DEDUCED, log entry 147) -/
def bypEnable (v : W32) (s : State) : State :=
  let b := s.board
  let en := BitVec.ofNat 12 (fld v 0 12)
  if b.bypEn &&& ~~~en &&& (b.bypState ||| b.bypMoving) ≠ 0 then
    event s .link 6 ((setBits 12 (b.bypEn &&& ~~~en &&& (b.bypState ||| b.bypMoving)).toNat).headD 0)
  else { s with board := { b with bypEn := en } }
/-- Switch `k` arrives; one that was sent on to bypass moves again. -/
def bypDone (k : Nat) (s : State) : State :=
  let b := s.board
  if 12 ≤ k ∨ b.bypMoving.getLsbD k = false then s
  else
    let on := b.bypThen.getLsbD k
    let s := { s with board := { b with bypState := putBit b.bypState k (b.bypTarget.getLsbD k), bypMoving := putBit b.bypMoving k on,
                                        bypTarget := putBit b.bypTarget k (b.bypTarget.getLsbD k || on), bypThen := putBit b.bypThen k false } }
    if coreRuns s then each (switchPorts k) (event s .link 4 k) tryTrain else s

/-! Reset (Table 24-1). -/

/-- The core domain is reset and held. With the inventory in `r`; a change that had not been written survives only a reset without loss
of power or trip (`live`), R456, R457. (DEDUCED, log entry 132) -/
def coreReset (live : Bool) (s : State) : State :=
  let z := State.reset
  let r := if live then recordOf s else s.inv.saved
  { z with
    pending := s.pending
    opt := s.opt
    out := s.out
    free := s.free
    board := { s.board with held := true, romWait := false, fref := false }
    flash := { z.flash with cells := s.flash.cells, bad := s.flash.bad }
    inv := { z.inv with tiles := r.tiles, map := r.map, wire := r.wire, saved := s.inv.saved, seqn := s.inv.seqn,
                        dirty := live && s.inv.dirty }
    ms := { z.ms with stackTab := r.stackTab }
    optics := { z.optics with ports := r.ports, banks := r.banks }
    shf := { z.shf with sheaves := r.sheaves }
    thm := { z.thm with zones := r.zones, restart := s.thm.restart }
    pwr := { z.pwr with dies := r.dies }
    dbg := { z.dbg with level := s.dbg.level, nonce := s.dbg.nonce } }
/-- A reset of kind `k` while the core runs; held in reset or undefined, it stays as it is. (DEDUCED, log entry 116) -/
def resetKind (k : Nat) (s : State) : State :=
  if !coreRuns s then s
  else
    let s := coreReset (k == 1) s
    { s with board := { s.board with kind := BitVec.ofNat 2 k } }

/-! The boot ROM (R468 to R473). -/

/-- The ROM goes on to WAIT_IMAGE once FREF has locked and the temperatures allow it. (DEDUCED, log entry 118) -/
def romGo (s : State) : State :=
  if s.board.fref ∧ s.board.romWait = false then { s with boot := { s.boot with stage := 2 } } else s
/-- FAILED with ROM_SELFTEST, reported on the management port. -/
def romFail (s : State) : State := romRecord { s with boot := { s.boot with stage := 15, error := 6 } }
/-- Is the ROM before WAIT_IMAGE? -/
def romRuns (s : State) : Bool := coreRuns s && s.boot.stage == 1
/-- The trip-path readings, in steps of 0.125 °C, allow core bring-up, or are reported (R448). -/
def romTemps (temps : List Int) (s : State) : State :=
  if temps.any (fun t => decide (t < 0)) then emit { s with board := { s.board with romWait := true } } .lowTemp
  else { s with board := { s.board with romWait := false } }
/-- The ROM starts: its self-check, the temperatures, the lock to FREF. -/
def romStart (romOk fref : Bool) (temps : List Int) (s : State) : State :=
  let s := { s with board := { s.board with held := false, fref := fref } }
  let s := if s.thm.restart then event { s with thm := { s.thm with restart := false } } .thm 5 else s
  if romOk then romGo (romTemps temps s) else romFail s

/-- The first `n` bytes of the boot buffer. -/
def bootBytes (s : State) (n : Nat) : List Byte := (List.range n).map (fun i => tblGet (fun _ => 0) s.boot.buf i)
/-- The ERROR of an image whose length register holds `len`, 0 for none (Table 24-3). -/
def imageError (len : Nat) (l : List Byte) : Nat :=
  if len < 8448 ∨ 8388608 < len ∨ leAt l 8 4 ≠ len then 1
  else if leAt l 0 4 ≠ 0x57464B51 ∨ leAt l 4 4 ≠ 1 ∨ leAt l 20 12 ≠ 0 ∨ leAt l 64 192 ≠ 0 ∨ len - 8112 ≤ leAt l 16 4 then 2
  else if digest ((l.drop 32).take 32) ≠ Config.vendorKeyHash then 3
  else if Config.slhVerify ((l.drop 32).take 32) (l.take (len - 7856)) ((l.drop (len - 7856)).take 7856) = false then 4
  else if leAt l 12 4 < Config.minSvn.toNat then 5 else 0
/-- The ASCII bytes of QK9640-ATTEST-1. -/
def attestLabel : List Byte := [0x51, 0x4B, 0x39, 0x36, 0x34, 0x30, 0x2D, 0x41, 0x54, 0x54, 0x45, 0x53, 0x54, 0x2D, 0x31]
/-- The seeds of the attestation key (R473). -/
def attestSeeds : List Byte := hkdf (leBytes 16 Config.serial.toNat) (leBytes 32 Config.deviceSecret.toNat) attestLabel 48
/-- DIGEST of the store, or zero where it is missing or invalid. -/
def storeDigest (s : State) : BitVec 256 := match storeImage s with
  | some l => BitVec.ofNat 256 (leAt l 16 32)
  | none => 0
/-- Measurements, the attestation key, and the start of the firmware. -/
def firmwareStarts (s : State) (img : List Byte) : State :=
  let ok := Config.slhPublic attestSeeds == Config.leafKey (flashRead s 0 0x400000)
  let s := { s with boot := { s.boot with meas0 := Config.romMeasurement, meas1 := digest img, meas2 := storeDigest s,
                                          keySeeds := attestSeeds, attestOk := ok, buf := [], stage := 5 } }
  if ok then s else event s .cal 4
/-- HIF_BOOT_CMD. -/
def bootGo (v : W32) (s : State) : State :=
  if v.getLsbD 0 ∧ s.boot.stage = 2 then { s with boot := { s.boot with stage := 3 } } else s
/-- Verification ends. (DEDUCED, log entry 119) -/
def verifyDone (s : State) : State :=
  if s.boot.stage ≠ 3 then s
  else
    let n := s.boot.len.toNat
    let img := bootBytes s n
    let e := imageError n img
    if e = 0 then firmwareStarts s img
    else
      let s := romRecord { s with boot := { s.boot with error := e, buf := [] } }
      { s with boot := { s.boot with stage := 2, attempts := satInc s.boot.attempts } }

/-! Bring-up (R474). -/

/-- The inventory record was valid, or every spare counts as unused (R457). -/
def invLoad (ok : Bool) (s : State) : State :=
  if ok then s
  else
    let old := Record.factory
    let hours (t : Tbl PwrDie) (d : Nat) : Tbl PwrDie := tblSet (fun _ => PwrDie.init) t d { PwrDie.init with hours := 43800 }
    event { s with
      inv := { s.inv with valid := false, lost := true, tiles := old.tiles, map := old.map, wire := old.wire }
      ms := { s.ms with stackTab := old.stackTab }
      optics := { s.optics with ports := old.ports, banks := old.banks }
      shf := { s.shf with sheaves := old.sheaves }
      thm := { s.thm with zones := old.zones }
      pwr := { s.pwr with dies := (List.range 4).foldl hours s.pwr.dies } } .inv 3
/-- Is section `i` of a store image used (R478)? -/
def sectionUsed (l : List Byte) (i : Nat) : Bool :=
  match (calSections l).find? (fun x => x.1 == i) with
  | some x => Config.sectionKnown i x.2.1 x.2.2.2
  | none => false
/-- CAL_LOAD: the store's sections, or the uncalibrated mode (R478, R479). -/
def calLoad (s : State) : State :=
  match storeImage s with
  | none => event (degrade { s with boot := { s.boot with uncal := true, sectOk := 0 } }) .cal 0
  | some l =>
    let used := (List.range 8).filter (fun i => sectionUsed l (i + 1))
    let s := { s with boot := { s.boot with sectOk := used.foldl (fun b i => putBit b i true) 0 } }
    each ((List.range 8).filter (fun i => !used.contains i)) s (fun s i => event s .cal 1 (i + 1))
/-- Interface `i` was trained: with the spare wires that the report gives it; one lost before stays lost. -/
def wireTrain (wires : List (Nat × List Nat)) (s : State) (i : Nat) : State :=
  match wires.find? (fun x => x.1 == i) with
  | some x => wiresTrained s i x.2
  | none => if (wireGet s i).getLsbD 11 then siteLost s i else s
/-- The interfaces of the universal sites that hold memory-side dies. -/
def memorySites (s : State) : List Nat := (List.range (stacksOf s)).map (fun j => 4 + stackSite s j)
/-- The rings of the photonic dies may lock now; the sheaves warm. (DEDUCED, log entry 121) -/
def photonicStart (s : State) : State :=
  let s := ringTemps (fun z => (zoneGet s z).temp) s
  each (List.range 4) s (fun s d =>
    let x := sheafGet s d
    if s.shf.en.getLsbD d && mayWarm s d then sheafPut s d { x with st := .warming, tries := 0 } else s)
/-- The stage that follows is entered. -/
def enterStage (n : Nat) (s : State) : State :=
  let s := { s with boot := { s.boot with stage := n } }
  if n = 9 then photonicStart s else if n = 10 then each (List.range (portsOf s)) s (fun s p => testStart s p false) else s
/-- What the stage in progress leaves behind. -/
def stageDone (r : StageReport) (s : State) : State :=
  match s.boot.stage with
  | 5 => each (List.range 4) (calLoad (invLoad r.invOk s)) gbCheck
  | 6 =>
    let s := each (memorySites s) s (wireTrain r.wires)
    each (List.range (stacksOf s)) s (fun s j =>
      if (stackGet s j).lost then s else if r.stackTab.contains j then stackLost s j else trained s j)
  | 7 => each ((List.range 24).filter (fun i => !(memorySites s).contains i)) s (wireTrain r.wires)
  | 8 => boundary r.tiles s
  | _ => s
/-- A step of bring-up ends and the next begins; REGISTER ends with the fault manager's acknowledgement. -/
def bringupEnd (r : StageReport) (s : State) : State :=
  let n := s.boot.stage
  if n < 5 ∨ 12 < n ∨ (n = 12 ∧ s.mgt.acked = false) then s else enterStage (n + 1) (stageDone r s)

/-! Rails (R467, R529). -/

/-- The device reports RAIL_ORDER and waits for the next cycle of RESET_N. -/
def railReport (s : State) : State :=
  if s.board.railOrder then s else emit { s with board := { s.board with railOrder := true } } .railOrder
/-- The rail order is checked: no PWR_GOOD is high before that of an earlier group. -/
def railCheck (s : State) : State :=
  let up (g : Nat) : Bool := s.board.pwrGood.getLsbD g
  if s.board.held && (List.range 7).any (fun g => up g && (List.range g).any (fun i => !up i)) then railReport s else s
/-- PWR_GOOD of group `g` (from 0, in the order of R467) rises. -/
def goodRise (g : Nat) (s : State) : State :=
  let b := s.board
  if 7 ≤ g ∨ b.pwrGood.getLsbD g = true then s
  else
    let p := putBit b.pwrGood g true
    let s := { s with board := { b with pwrGood := p, rising := p != 0x7F } }
    railCheck s
/-- PWR_GOOD of group `g` falls: a reset of kind 3 while RESET_N is high, RAIL_ORDER while the rails are being brought up. -/
def goodFall (g : Nat) (s : State) : State :=
  let b := s.board
  if 7 ≤ g ∨ b.pwrGood.getLsbD g = false then s
  else
    let s := { s with board := { b with pwrGood := putBit b.pwrGood g false, rising := false } }
    if b.resetN then resetKind 3 s else if b.rising then railReport s else s
/-- The AUX rails come up: everything is reset but fuses, flash and the latched positions of the switches.
(DESIGN CHOICE, log entry 18) -/
def auxUp (s : State) : State :=
  if s.board.aux then s
  else
    let b := Board.init
    let s' := coreReset false s
    { s' with board := { b with resetN := s.board.resetN, pwrGood := s.board.pwrGood, bypState := s.board.bypState, bypMoving := s.board.bypMoving, bypTarget := s.board.bypTarget,
                                bypThen := s.board.bypThen }
              thm := { s'.thm with restart := false }
              dbg := { s'.dbg with level := 0 } }
/-- The AUX rails are lost: the switches go to bypass from the capacitor; with core rails up the core domain is undefined. -/
def auxLoss (s : State) : State :=
  if !s.board.aux then s
  else
    let b := s.board
    let b' := toBypass b
    let s := if coreRuns s then each (setBits 12 (b'.bypMoving &&& ~~~b.bypMoving).toNat) s (fun s k => each (switchPorts k) s portDown) else s
    { s with board := { b' with aux := false, holdup := false, coreUndef := !(b.pwrGood.toNat / 2 == 0) } }
/-- RESET_N falls; level 3 of the debug port stays unless a token is being checked (R499, R503). -/
def resetLow (s : State) : State :=
  if !s.board.resetN then s
  else
    let keep := s.dbg.level == 3 && s.dbg.check.isNone
    let s := { s with board := toBypass { s.board with resetN := false, railOrder := false } }
    let s := resetKind 1 s
    { s with dbg := { s.dbg with level := if keep then 3 else 0 } }
/-- RESET_N rises: with every rail up, no trip and the rails in order, the ROM starts. (DEDUCED, log entry 117) -/
def resetHigh (romOk fref : Bool) (temps : List Int) (s : State) : State :=
  let b := s.board
  if b.resetN then s
  else
    let s := { s with board := { b with resetN := true },
                      dbg := { s.dbg with level := if s.dbg.level = 3 then 0 else s.dbg.level, pins := none } }
    if b.held && b.aux && b.pwrGood == 0x7F && !b.thermTrip && !b.railOrder then romStart romOk fref temps s else s

/-! The trip path (R446, R447). -/

/-- A trip-path reading crosses its threshold: zone `z`, or stack `z` where `hbm`. -/
def trip (hbm : Bool) (z : Nat) (s : State) : State :=
  if s.board.thermTrip || !s.board.aux then s
  else
    let cause : W32 := BitVec.ofNat 32 (if hbm then 0x80 + 0x100 + 0x200 * (z % 16) else z % 128 + 0x80)
    let s := emit (bumpFseq s) (.romReport (mkRec s 5 0 13 0xFF 0 (evDetail s .thm z 0 0)))
    let s := { s with board := toBypass { s.board with thermTrip := true, tripCause := cause } }
    let s := resetKind 2 s
    { s with board := { s.board with kind := 2 }, thm := { s.thm with restart := true }, dbg := { s.dbg with level := 0, hold := false } }

/-! The rows of the table. -/

/-- AUX_POWER_UP (R465). -/
def execAuxPowerUp (s : State) : Host.Outcome State Fault Refusal := .next (auxUp s)
/-- AUX_POWER_LOSS (R20). -/
def execAuxPowerLoss (s : State) : Host.Outcome State Fault Refusal := .next (auxLoss s)
/-- HOLDUP_OK_RISE (R467). -/
def execHoldupOkRise (s : State) : Host.Outcome State Fault Refusal :=
  .next (if s.board.aux then railCheck { s with board := { s.board with holdup := true } } else s)
/-- HOLDUP_LOW (R308). -/
def execHoldupLow (s : State) : Host.Outcome State Fault Refusal :=
  .next (if s.board.holdup then
    let s := { s with board := { s.board with holdup := false } }
    if coreRuns s then event s .link 5 else s
  else s)
/-- PWR_GOOD_RISE (R467). -/
def execPwrGoodRise (g : Nat) (s : State) : Host.Outcome State Fault Refusal := .next (goodRise g s)
/-- PWR_GOOD_FALL (R465). -/
def execPwrGoodFall (g : Nat) (s : State) : Host.Outcome State Fault Refusal := .next (goodFall g s)
/-- RESET_N_ASSERT (R466). -/
def execResetNAssert (s : State) : Host.Outcome State Fault Refusal := .next (resetLow s)
/-- RESET_N_RELEASE (R468). -/
def execResetNRelease (romOk fref : Bool) (temps : List Int) (s : State) : Host.Outcome State Fault Refusal :=
  .next (resetHigh romOk fref temps s)
/-- FREF_LOCK (R529). -/
def execFrefLock (s : State) : Host.Outcome State Fault Refusal :=
  .next (if romRuns s then romGo { s with board := { s.board with fref := true } } else s)
/-- FREF_LOCK_TIMEOUT (R529). -/
def execFrefLockTimeout (s : State) : Host.Outcome State Fault Refusal :=
  .next (if romRuns s && !s.board.fref then romFail s else s)
/-- LOW_TEMP_RECHECK (R448). -/
def execLowTempRecheck (temps : List Int) (s : State) : Host.Outcome State Fault Refusal :=
  .next (if romRuns s && s.board.romWait then romGo (romTemps temps s) else s)
/-- BOOT_GO (R471). -/
def execBootGo (v : W32) (s : State) : Host.Outcome State Fault Refusal := run s (bootGo v)
/-- BOOT_VERIFY_DONE (R471). -/
def execBootVerifyDone (s : State) : Host.Outcome State Fault Refusal := run s verifyDone
/-- BRINGUP_STEP_END (R474). -/
def execBringupStepEnd (r : StageReport) (s : State) : Host.Outcome State Fault Refusal := onFabric (bringupEnd r) s
/-- THERMAL_TRIP (R446). -/
def execThermalTrip (hbm : Bool) (z : Nat) (s : State) : Host.Outcome State Fault Refusal := .next (trip hbm z s)
/-- TRIP_RELEASE (R447). -/
def execTripRelease (s : State) : Host.Outcome State Fault Refusal := .next { s with board := { s.board with thermTrip := false } }
/-- BYPASS_TO_PASS (R308). -/
def execBypassToPass (mask : Nat) (s : State) : Host.Outcome State Fault Refusal := onFabric (fwOnly (bypCmd mask false)) s
/-- BYPASS_TO_BYPASS (R308). -/
def execBypassToBypass (mask : Nat) (s : State) : Host.Outcome State Fault Refusal := onFabric (fwOnly (bypCmd mask true)) s
/-- BYP_EN_WRITE (R308). -/
def execBypEnWrite (v : W32) (s : State) : Host.Outcome State Fault Refusal := run s (fwOnly (bypEnable v))
/-- BYP_DONE (R308). -/
def execBypDone (k : Nat) (s : State) : Host.Outcome State Fault Refusal := .next (bypDone k s)

end Sys2Proof.Machine
end

