-- ==== Sys2Proof/Machine/RegRead.lean ====
section
/-!
DEFINITION. Reads of BAR0 (chapter 26): what every register of the map returns. Reading changes nothing (R7).
-/

namespace Sys2Proof.Machine

/-- A signed value in 12 bits. -/
def signed12 (t : Int) : Nat := (BitVec.ofInt 12 t).toNat
/-- A register of an indexed family of `n` at stride `k` from `lo`: its index, where the offset names one of them. -/
def indexAt (off lo k n : Nat) : Option Nat := if lo ≤ off ∧ off < lo + k * n ∧ (off - lo) % k = 0 then some ((off - lo) / k) else none
/-- The value of an indexed register, 0 where the offset names none. -/
def atIndex (off lo k n : Nat) (f : Nat → Nat) : Nat := match indexAt off lo k n with
  | some i => f i
  | none => 0

/-! The 64-bit registers (Table 26-1). -/

/-- Does the aligned 8-byte word at `a` belong to a 64-bit or a wider register (R509, R510)? -/
def is64 (s : State) (a : Nat) : Bool :=
  [0x1010, 0x1018, 0x1020, 0x1028, 0x1040, 0x1048, 0x10008, 0x10010, 0x10018, 0x410010, 0x411008, 0x440000, 0x440010, 0x440020, 0x60008,
   0x90018, 0x90030, 0x90040, 0x90060, 0x90068].contains a
    || [0xC0010, 0xD0000, 0xD0008, 0xD0020, 0xD1008, 0xD1010, 0xE0018].contains a
    || (indexAt a 0x2000 0x10 256).isSome || (indexAt a 0x3000 8 128).isSome || (indexAt a 0x420C00 8 7).isSome
    || (indexAt a 0x90100 8 (portsOf s)).isSome || (indexAt a 0xA0000 8 1024).isSome || (indexAt a 0xB1000 8 256).isSome
    || (indexAt a 0xC1000 8 512).isSome || (indexAt a 0xD1040 8 8).isSome || (indexAt a 0xE1000 8 256).isSome
    || (indexAt a 0x100100 8 4).isSome
    || (decide (0x91000 ≤ a ∧ a < 0x91800) && (a % 0x400 == 0 || decide (0x10 ≤ a % 0x400 ∧ a % 0x400 < 0x100)))

/-- 8-byte word `w` of a circuit entry (Table 18-6). -/
def cktWord (c : Ckt) (w : Nat) : Nat :=
  if w = 0 then c.ckt.toNat + c.st.toNat * 2 ^ 12 + c.slice.toNat * 2 ^ 16 + c.src.toNat * 2 ^ 32 + c.dst.toNat * 2 ^ 48
  else if w = 1 then c.inp.toNat + c.out.toNat * 2 ^ 8 + c.slots.toNat * 2 ^ 16 + c.stride.toNat * 2 ^ 24 + c.phase.toNat * 2 ^ 32
  else if w = 2 then c.act.toNat else 0
/-- 8-byte word `w` of a mirror entry (Table 21-10). -/
def mirWord (m : Mirror) (w : Nat) : Nat :=
  if w = 0 then b2n m.valid + 2 * b2n m.rank + m.st.toNat * 4 + m.partner.toNat * 2 ^ 16 + m.pfdom.toNat * 2 ^ 32
  else if w = 1 then m.lbase else if w = 2 then m.size else if w = 3 then m.pbase else if w = 4 then m.cbase
  else if w = 5 then m.reb.toNat else 0
/-- CAL_INV_TILE_d (Table 23-3). -/
def invTile (s : State) (d : Nat) : Nat :=
  let bits (p : Tile → Bool) : Nat := (List.range 18).foldl (fun n i => n + b2n (p (tileGet s (18 * d + i))) * 2 ^ i) 0
  bits (fun x => x.failed) + bits (fun x => x.colmap) * 2 ^ 18 + bits (fun x => x.arrayOff) * 2 ^ 36 + (spareTiles s d).length * 2 ^ 54
/-- A field of a routing bank at offset `o` of the bank, as the 8-byte word there (Table 17-2). -/
def bankWord (b : RBank) (o : Nat) : Nat :=
  if o = 0 then fld b.dir 0 48
  else if 0x10 ≤ o ∧ o < 0x40 then (tblGet (fun _ => 0) b.torus ((o - 0x10) / 8)).toNat
  else if 0x40 ≤ o ∧ o < 0x80 then (tblGet (fun _ => 0) b.field ((o - 0x40) / 8)).toNat
  else if 0x80 ≤ o ∧ o < 0x100 then (tblGet (fun _ => 0) b.grid ((o - 0x80) / 8)).toNat else 0
/-- Bank `b`, 0 for A. -/
def bankAt (s : State) (b : Nat) : RBank := if b = 0 then s.rt.bankA else s.rt.bankB

/-- The 8-byte word at `a` of a 64-bit or wider register. -/
def reg64 (s : State) (a : Nat) : Nat :=
  let one : List (Nat × Nat) :=
    [(0x1010, s.hif.qtBase.toNat), (0x1018, s.hif.dbBase.toNat), (0x1020, s.hif.sumBase.toNat), (0x1028, s.hif.headBase.toNat),
     (0x1040, s.hif.bar2Base.toNat), (0x1048, s.fr.base.toNat), (0x10008, s.beat.now.toNat), (0x10010, s.beat.start.toNat),
     (0x10018, s.beat.epochPtp.toNat), (0x410010, s.ms.repairAddr.toNat), (0x411008, s.ms.t1500Data.toNat), (0x440000, s.seqs.base.toNat),
     (0x440010, s.seqs.kvBase.toNat), (0x440020, s.seqs.kvStack.toNat), (0x60008, s.shf.imageAt.toNat), (0x90018, s.rt.swBeat.toNat)]
    ++ [(0x90030, s.rt.rankBase.toNat), (0x90040, s.rt.mcBase.toNat), (0x90060, s.rt.cmapBeat.toNat), (0x90068, s.rt.resv.toNat),
        (0xC0010, s.mir.committed.toNat), (0xD0000, s.lease.expiry.toNat), (0xD0008, s.lease.renewBeat.toNat), (0xD0020, s.lease.deadline.toNat),
        (0xD1008, s.mgt.fmAddr.toNat), (0xD1010, s.mgt.telAddr.toNat), (0xE0018, s.pwr.ports.toNat)]
  match one.find? (fun x => x.1 == a) with
  | some x => x.2
  | none =>
    if a < 0x3000 then atIndex a 0x2000 0x10 256 (fun n => (cqGet s n).base.toNat)
    else if a < 0x4000 then
      atIndex a 0x3000 8 128 (fun i => (if i % 2 = 0 then tblGet (fun _ => 0) s.hif.hrgnBase (i / 2) else tblGet (fun _ => 0) s.hif.hrgnSize (i / 2)).toNat)
    else if a < 0x91000 then atIndex a 0x90100 8 (portsOf s) (fun p => (tblGet (fun _ => 0) s.rt.cmap p).toNat)
    else if a < 0x91800 then bankWord (bankAt s ((a - 0x91000) / 0x400)) (a % 0x400)
    else if a < 0xB0000 then atIndex a 0xA0000 8 1024 (fun i => cktWord (cktGet s (i / 4)) (i % 4))
    else if a < 0xC0000 then atIndex a 0xB1000 8 256 (fun i => fld (rgnGet s (i / 4)) (64 * (i % 4)) 64)
    else if a < 0xD0000 then atIndex a 0xC1000 8 512 (fun i => mirWord (mirGet s (i / 8)) (i % 8))
    else if a < 0xE0000 then atIndex a 0xD1040 8 8 (fun n => (tblGet (fun _ => 0) s.mgt.allow n).toNat)
    else if a < 0xF0000 then atIndex a 0xE1000 8 256 (fun n => (phaseGet s n).toNat)
    else if a < 0x110000 then atIndex a 0x100100 8 4 (invTile s)
    else atIndex a 0x420C00 8 7 (fun k => (tblGet (fun _ => 0) s.arb.last k).toNat)

/-! The 32-bit registers. -/

/-- The offsets of the event registers. -/
def evOffset : EvBlk → Nat
  | .hif => 0x1034 | .beat => 0x10028 | .mem => 0x410004 | .memArb => 0x420C60 | .shf => 0x60010 | .opt => 0x70018 | .link => 0x80004
  | .rt => 0x90028 | .ckt => 0xA3000 | .rmt => 0xB0004 | .mir => 0xC0008 | .mgt => 0xD0034 | .mgtNet => 0xD1028 | .pwr => 0xE000C
  | .thm => 0xF0008 | .inv => 0x100004 | .cal => 0x101004 | .dbg => 0x110004 | .seq => 0x440034
/-- Every event register. -/
def evAll : List EvBlk :=
  [.hif, .beat, .mem, .memArb, .shf, .opt, .link, .rt, .ckt, .rmt, .mir, .mgt, .mgtNet, .pwr, .thm, .inv, .cal, .dbg, .seq]
/-- The event register at an offset. -/
def evAt (off : Nat) : Option EvBlk := evAll.find? (fun b => evOffset b == off)
/-- A summary of event registers, bit i for the i-th (R516). -/
def evSummary (s : State) (l : List EvBlk) : Nat :=
  (List.range l.length).foldl (fun n i => match l[i]? with
    | some b => n + b2n (evGet s b != 0) * 2 ^ i
    | none => n) 0

/-- HIF_BOOT_STATUS (Table 24-10). -/
def bootStatus (s : State) : Nat :=
  s.boot.stage % 16 + s.boot.error % 16 * 2 ^ 4 + s.board.kind.toNat * 2 ^ 8 + Config.minSvn.toNat * 2 ^ 10 + b2n s.boot.attestOk * 2 ^ 16
    + s.boot.attempts.toNat * 2 ^ 17
/-- HIF_ID (Table 26-3). -/
def hifId (s : State) : Nat := 0xB0 + b2n (s.opt == .m8l8) * 2 ^ 8 + stacksOf s * 2 ^ 12 + ioDiesOf s * 2 ^ 16 + portsOf s * 2 ^ 20
/-- The state code of a queue. -/
def qstCode : QSt → Nat
  | .disabled => 0 | .active => 1 | .stopping => 2 | .error => 3
/-- The HIF_ registers. -/
def regHif (s : State) (off : Nat) : Nat :=
  if off = 0 then hifId s
  else if off = 4 then (List.range (stacksOf s)).foldl (fun n j => n + 2 ^ stackSite s j) 0
  else if off = 8 then 1
  else if off = 0x800 then bootStatus s
  else if off = 0x804 then s.boot.len.toNat
  else if 0x810 ≤ off ∧ off < 0x820 then fld Config.serial (8 * (off - 0x810)) 32
  else if off = 0x1000 then b2n s.hif.en
  else if off = 0x1008 then b2n s.hif.locked + s.hif.gen.toNat * 2 + s.hif.width.toNat * 2 ^ 4 + b2n s.hif.flit * 2 ^ 9
  else if off = 0x100C then s.hif.poll.toNat
  else if off = 0x1038 then s.hif.eventVec.toNat + s.hif.faultVec.toNat * 2 ^ 8
  else if off = 0x1050 then b2n s.fr.en + s.fr.log2 * 2
  else if off = 0x1054 then s.fr.drop.toNat
  else if off = 0x1058 then evSummary s [.hif, .beat, .mem, .memArb, .shf, .opt, .link, .rt, .ckt, .rmt]
  else if off = 0x105C then evSummary s [.mir, .mgt, .mgtNet, .pwr, .thm, .inv, .cal, .dbg, .seq]
  else if 0x2000 ≤ off ∧ off < 0x3000 then
    let c := cqGet s ((off - 0x2000) / 0x10)
    if off % 16 = 8 then b2n c.en + c.log2 * 2 + c.vec.toNat * 2 ^ 8 + c.count.toNat * 2 ^ 16 + c.time.toNat * 2 ^ 24
    else if off % 16 = 12 then fld c.i 0 16 + b2n (c.en && (c.i.toNat >>> c.log2) % 2 == 0) * 2 ^ 16 else 0
  else atIndex off 0x4000 4 1024 (fun q =>
    let x := quGet s q
    qstCode x.st + x.err.toNat * 4 + fld x.ci 0 16 * 2 ^ 16)

/-- The state code of the beat. -/
def beatCode : BeatSt → Nat
  | .unsynced => 0 | .acquiring => 1 | .locked => 2 | .holdover => 3 | .master => 4 | .conflict => 5
/-- BEAT_STATUS (Table 3-7). -/
def beatStatus (s : State) : Nat :=
  beatCode s.beat.st + s.beat.period.toNat * 2 ^ 3 + s.beat.hops.toNat * 2 ^ 6 + s.beat.upstream.toNat * 2 ^ 10 + b2n s.beat.ptpLocked * 2 ^ 16
/-- The BEAT_ registers. -/
def regBeat (s : State) (off : Nat) : Nat :=
  let b := s.beat
  if off = 0x10000 then
    b2n b.ctrlMaster + b.ctrlPeriod.toNat * 2 + b2n b.ptpEn * 2 ^ 4 + b2n b.upFixed * 2 ^ 5 + b.upPort.toNat * 2 ^ 6
  else if off = 0x10004 then beatStatus s
  else if off = 0x10020 then b.offset.toNat
  else if off = 0x10024 then b.holdLen.toNat
  else if off = 0x1002C then b.late.toNat
  else if off = 0x10030 then b.cancel.toNat
  else atIndex off 0x10100 4 (portsOf s) (linkDelay s)

/-- The state code of a sheaf. -/
def sheafCode : SheafSt → Nat
  | .off => 0 | .warming => 1 | .calibrating => 2 | .ready => 3 | .window => 4 | .unlocked => 5
/-- SHF_STATUS_d (Table 12-10). -/
def sheafStatus (s : State) (d : Nat) : Nat :=
  let x := sheafGet s d
  sheafCode x.st + b2n x.permanent * 2 ^ 3 + x.spareV % 4 * 2 ^ 4 + x.spareU % 4 * 2 ^ 6 + b2n x.held.isSome * 2 ^ 8
/-- The SHF_ registers. -/
def regShf (s : State) (off : Nat) : Nat :=
  if off = 0x60000 then s.shf.en.toNat
  else if off = 0x60014 then s.shf.unlocks.toNat
  else if off = 0x60018 then s.shf.forced.toNat
  else if off = 0x6001C then s.shf.jrnlDest.toNat
  else if off = 0x60020 then s.shf.jrnlTmo.toNat
  else if 0x60040 ≤ off ∧ off < 0x60080 then
    let d := (off - 0x60040) / 16
    if off % 16 = 0 then sheafStatus s d else if off % 16 = 4 then (sheafGet s d).epoch.toNat
    else if off % 16 = 8 then (matrixId (sheafGet s d).image).toNat else 0
  else 0

/-- The state code of a ring loop. -/
def ringCode : RingSt → Nat
  | .idle => 0 | .sweep => 1 | .capture => 2 | .verify => 3 | .locked => 4 | .unlocked => 5 | .failed => 6
/-- OPT_LANE_p_k. -/
def optLane (s : State) (p k : Nat) : Nat :=
  (tblGet (fun _ => 0) (optGet s p).rx k).toNat + ringCode (loopGet s (RingId.drop p k)).st * 2 ^ 16
    + ringCode (loopGet s (RingId.modulator p k)).st * 2 ^ 19
/-- The OPT_ registers. -/
def regOpt (s : State) (off : Nat) : Nat :=
  let o := s.optics
  if off = 0x70000 then o.ctrl.toNat
  else if off = 0x70008 then o.rxTarget.toNat
  else if off = 0x7000C then o.mMin.toNat
  else if off = 0x70010 then o.retryLim.toNat
  else if off = 0x70014 then o.slew.toNat
  else if off = 0x7001C then o.mislock.toNat
  else if off = 0x70020 then o.mismatch.toNat
  else if off < 0x70400 then
    atIndex off 0x70100 4 (3 * ioDiesOf s) (fun n =>
      let b := bankGet s n
      b.st.toNat + b2n b.group * 2 ^ 2 + b2n b.pend * 2 ^ 3 + b.wear.toNat * 2 ^ 4)
  else if off < 0x71000 then
    atIndex off 0x70400 4 (portsOf s) (fun p =>
      let x := optGet s p
      x.mstate % 8 + b2n x.fec * 2 ^ 3 + x.txRet.toNat * 2 ^ 4 + x.rxRet.toNat * 2 ^ 13 + x.margin.toNat * 2 ^ 22 + b2n x.test.isSome * 2 ^ 30)
  else
    atIndex off 0x71000 4 (16 * portsOf s) (fun i => if i % 16 < 9 then optLane s (i / 16) (i % 16) else 0)

/-- The state code of a port. -/
def portCode : PortSt → Nat
  | .down => 0 | .train => 1 | .ident => 2 | .self => 3 | .hold => 4 | .up => 5
/-- The FAB_LINK_, FAB_BYP_ and FAB_PEER_ registers. -/
def regLink (s : State) (off : Nat) : Nat :=
  if off = 0x80008 then s.link.drops.toNat
  else if off = 0x80010 then s.board.bypEn.toNat
  else if off = 0x80018 then s.board.bypState.toNat + s.board.bypMoving.toNat * 2 ^ 12 + b2n s.board.holdup * 2 ^ 24
  else if off < 0x80400 then
    atIndex off 0x80100 4 (portsOf s) (fun p =>
      let x := portGet s p
      portCode x.st + x.gen.toNat * 2 ^ 3 + b2n x.passed * 2 ^ 7 + x.txLanes.toNat * 2 ^ 8 + x.rxLanes.toNat * 2 ^ 12)
  else if off < 0x81000 then atIndex off 0x80400 4 (portsOf s) (fun p => (portGet s p).retry.toNat)
  else
    atIndex off 0x81000 4 (8 * portsOf s) (fun i =>
      match (portGet s (i / 8)).peer with
      | none => 0
      | some x => if i % 8 < 4 then fld x.serial (32 * (i % 8)) 32
        else if i % 8 = 4 then x.chip.toNat + x.port.toNat * 2 ^ 16 + b2n x.storage * 2 ^ 22 else 0)

/-- The FAB_ routing registers and the routing banks. -/
def regRt (s : State) (off : Nat) : Nat :=
  let r := s.rt
  if off = 0x90000 then r.chip.toNat
  else if off = 0x90004 then r.slice.toNat + b2n r.repro * 2 ^ 12
  else if off = 0x90008 then r.ctrl.toNat
  else if off = 0x9000C then r.thr.toNat
  else if off = 0x90010 then r.ageLim.toNat
  else if off = 0x90020 then b2n r.cur + b2n r.armed * 2 + b2n r.draining * 4
  else if off = 0x90024 then r.drain.toNat
  else if off = 0x90038 then r.rankCount.toNat
  else if off = 0x90050 then r.ageDrop.toNat
  else if off = 0x90054 then r.sliceDrop.toNat
  else if off = 0x90058 then r.routeDrop.toNat
  else if off = 0x90070 then r.seedSlice.toNat
  else if 0x91000 ≤ off ∧ off < 0x91800 then
    let b := bankAt s ((off - 0x91000) / 0x400)
    if off % 0x400 = 8 then fld b.date 0 6 else atIndex (off % 0x400) 0x100 4 128 (fun w => (tblGet (fun _ => 0) b.permit w).toNat)
  else 0

/-- A slot table entry of a port (Table 18-5). -/
def slotWord (s : State) (p i : Nat) : Nat :=
  if portsOf s ≤ p then 0
  else match slotOwner s p i with
    | some n => n + 2 ^ 15
    | none => 0
/-- Two slot table entries of port `p`. -/
def slotPair (s : State) (p o : Nat) : Nat := slotWord s p (o / 2) + slotWord s p (o / 2 + 1) * 2 ^ 16
/-- The FAB_CKT_ and FAB_SLOT_ registers (R507). -/
def regCkt (s : State) (off : Nat) : Nat :=
  if off = 0xA3004 then s.ckt.drop.toNat
  else if off = 0xA3008 then ((List.range 256).filter (fun n => (cktGet s n).st != 0)).length
  else if 0xA4000 ≤ off ∧ off < 0xB0000 then slotPair s ((off - 0xA4000) / 0x400) ((off - 0xA4000) % 0x400)
  else if 0x120000 ≤ off ∧ off < 0x124000 then slotPair s (48 + (off - 0x120000) / 0x400) (off % 0x400)
  else 0

/-- The FAB_RMT_, FAB_FDOM, FAB_MIR_ and FAB_FENCE_ registers. -/
def regRmt (s : State) (off : Nat) : Nat :=
  if off = 0xB0000 then s.rmt.tmo.toNat
  else if off = 0xB0008 then s.rmt.timeouts.toNat
  else if off = 0xB000C then s.rmt.late.toNat
  else if off = 0xB0010 then s.rmt.deny.toNat
  else if off = 0xC0000 then s.mir.fdom.toNat
  else if off = 0xC0018 then (s.mir.ranges.filter (fun r => !r.sent)).length % 2 ^ 14
  else if off = 0xC0024 then s.fence.chips.length
  else if off = 0xC0028 then s.fence.drop.toNat
  else atIndex off 0xC2000 4 2048 (fun w => (s.fence.chips.filter (fun c => c / 32 == w)).foldl (fun n c => n + 2 ^ (c % 32)) 0)

/-- The MGT_ and DBG_ registers. -/
def regMgt (s : State) (off : Nat) : Nat :=
  if off = 0xD0014 then s.lease.lastSeq.toNat
  else if off = 0xD0018 then s.lease.st.toNat
  else if off = 0xD002C then s.lease.phase.toNat + b2n s.lease.cut * 2 ^ 3
  else if off = 0xD0030 then s.lease.time.toNat
  else if off = 0xD0038 then s.lease.len.toNat
  else if off = 0xD1000 then s.mgt.ip4.toNat
  else if off = 0xD1004 then s.mgt.ip4cfg.toNat
  else if off = 0xD1018 then s.mgt.telDiv.toNat
  else if off = 0xD101C then s.mgt.drop.toNat
  else if off = 0xD1020 then s.fr.fseq.toNat
  else if off = 0xD1024 then s.mgt.deny.toNat
  else if off = 0x110000 then s.dbg.level.toNat + b2n s.dbg.hold * 2 ^ 2 + b2n s.dbg.lockout * 2 ^ 3 + s.dbg.fails.toNat * 2 ^ 4
  else 0

/-- PWR_DIE_d (Table 22-7). -/
def pwrDie (s : State) (d : Nat) : Nat :=
  let x := dieGet s d
  x.power.toNat + min 1023 (x.allowed / 1000) * 2 ^ 10 + x.step.toNat * 2 ^ 20 + b2n x.gated * 2 ^ 27 + b2n (decide (96 < x.step.toNat)) * 2 ^ 28
    + x.limiter.toNat * 2 ^ 29
/-- PWR_PACE. -/
def pwrPace (s : State) : Nat := s.pwr.own.toNat + s.pwr.followed.toNat * 2 ^ 4
/-- The PWR_ registers. -/
def regPwr (s : State) (off : Nat) : Nat :=
  let x := s.pwr
  if off = 0xE0000 then x.ctrl.toNat
  else if off = 0xE0004 then x.cap.toNat
  else if off = 0xE0008 then x.pkg.toNat
  else if off = 0xE0010 then pwrPace s
  else if off = 0xE0014 then x.floor.toNat
  else if off = 0xE0020 then x.droopMv.toNat
  else if off = 0xE0024 then x.phaseNow.toNat
  else if 0xE0100 ≤ off ∧ off < 0xE0140 then
    let d := (off - 0xE0100) / 16
    if off % 16 = 0 then pwrDie s d
    else if off % 16 = 4 then guardband s d + (dieGet s d).hours / 64 * 2 ^ 8
    else if off % 16 = 8 then (dieGet s d).gates.toNat else (dieGet s d).droops.toNat
  else 0
/-- THM_ZONE_z (Table 22-8). -/
def thmZone (s : State) (z : Nat) : Nat :=
  if zoneOk s z then
    let x := zoneGet s z
    signed12 x.temp + x.active % 4 * 2 ^ 12 + x.spares % 4 * 2 ^ 14 + x.broken.toNat * 2 ^ 16
  else 0
/-- THM_HBM_j. -/
def thmHbm (s : State) (j : Nat) : Nat := if j < stacksOf s then signed12 (tblGet (fun _ => 0) s.thm.hbm j) else 0
/-- THM_DIE_d. -/
def thmDie (s : State) (d : Nat) : Nat := signed12 (dieGet s d).temp + signed12 (tblGet (fun _ => 0) s.thm.models d) * 2 ^ 12
/-- The THM_ registers. -/
def regThm (s : State) (off : Nat) : Nat :=
  if off = 0xF0000 then s.thm.ctrl.toNat
  else if off = 0xF000C then s.board.tripCause.toNat
  else if off < 0xF0280 then atIndex off 0xF0100 4 72 (thmZone s)
  else if off < 0xF0300 then atIndex off 0xF0280 4 10 (thmHbm s)
  else atIndex off 0xF0300 4 4 (thmDie s)

/-- CAL_INV_SRAM_t (Table 23-3). -/
def invSram (s : State) (t : Nat) : Nat :=
  let x := tileGet s t
  let n := (List.range 48).map (fun b => tblGet (fun _ => 0) x.rowsUsed b)
  (n.filter (fun k => k != 0)).length + (n.filter (fun k => decide (8 ≤ k))).length * 2 ^ 6 + n.foldl (fun a k => a + k) 0 * 2 ^ 12
    + b2n x.worn * 2 ^ 21
/-- The CAL_INV_ and CAL_ registers. -/
def regCal (s : State) (off : Nat) : Nat :=
  if off = 0x100000 then b2n s.inv.valid + 2 * b2n s.inv.lost
  else if off = 0x100008 then s.inv.seqn.toNat
  else if off = 0x101000 then b2n s.boot.uncal + 2 * s.boot.sectOk.toNat
  else if off = 0x101008 then s.flash.rdAddr.toNat
  else if 0x101040 ≤ off ∧ off < 0x101080 then leNat (flashRead s (s.flash.rdAddr.toNat + (off - 0x101040)) 4)
  else if off < 0x100400 then atIndex off 0x100200 4 72 (invSram s)
  else atIndex off 0x100400 4 24 (fun i => (wireGet s i).toNat)

/-- MEM_STACK_j (Table 14-10). PENDING_UE reads its reset value until the HBM training of the start-up, which retires what was recorded
(R277). -/
def memStack (s : State) (j : Nat) : Nat :=
  let k := stackGet s j
  let used := k.hppUsed.foldl (fun n e => n + e.2) 0
  (if k.lost then 3 else if k.maint then 2 else 1) + k.pool.toNat * 2 ^ 2 + min 255 (hardSparesTotal j - used) * 2 ^ 18
    + b2n (!k.ue.isEmpty && decide (6 < s.boot.stage)) * 2 ^ 26
/-- The MEM_PLACE_n and MEM_ registers of the memory system. -/
def regMem (s : State) (off : Nat) : Nat :=
  let m := s.ms
  if off < 0x410000 then
    atIndex off 0x400000 4 1024 (fun n =>
      if regionsOf s ≤ n then 0
      else
        let p := placeGet s n
        p.cls.toNat + p.die.toNat * 2 ^ 4 + p.stack.toNat * 2 ^ 8 + b2n p.nc * 2 ^ 12 + b2n p.err * 2 ^ 30 + b2n p.pending * 2 ^ 31)
  else if off = 0x410000 then m.ctrl.toNat
  else if off = 0x410018 then b2n m.busy + m.result.toNat * 2 + m.rstack.toNat * 2 ^ 4
  else if off = 0x41001C then m.maint.toNat
  else if off = 0x410020 then m.crc.toNat
  else if off = 0x411000 then m.t1500Ctrl.toNat + b2n m.t1500Busy * 2 ^ 31
  else if 0x410100 ≤ off ∧ off < 0x4101A0 then
    let j := (off - 0x410100) / 16
    if stacksOf s ≤ j then 0
    else if off % 16 = 0 then memStack s j
    else if off % 16 = 4 then (stackGet s j).ceCount.toNat
    else if off % 16 = 8 then (stackGet s j).ueCount.toNat else (stackGet s j).retired.toNat
  else 0
/-- MEM_ARB_W_k_g. -/
def arbWeights (s : State) (k g : Nat) : Nat :=
  (List.range 8).foldl (fun n i => n + (if assigned s k (8 * g + i) then weightOf s k (8 * g + i) else 0) * 2 ^ (4 * i)) 0
/-- MEM_ARB_STARVE_k, word `w`. -/
def arbStarve (s : State) (k w : Nat) : Nat := fld (tblGet (fun _ => 0) s.arb.starve k) (32 * w) 32
/-- The MEM_ARB_ registers. -/
def regArb (s : State) (off : Nat) : Nat :=
  if off < 0x420400 then atIndex off 0x420000 4 112 (fun i => arbWeights s (i / 16) (i % 16))
  else if off < 0x420800 then atIndex off 0x420400 4 7 (starveTh s)
  else if off < 0x420C00 then atIndex off 0x420800 4 28 (fun i => arbStarve s (i / 4) (i % 4))
  else atIndex off 0x420C40 4 7 (fun k => (tblGet (fun _ => 0) s.arb.count k).toNat)
/-- The MEM_SEQ_ and MEM_KVP_ registers. -/
def regSeq (s : State) (off : Nat) : Nat :=
  if off = 0x440008 then s.seqs.entries.toNat
  else if off = 0x440018 then s.seqs.frame.toNat
  else if off = 0x44001C then s.seqs.frames.toNat
  else if off = 0x440028 then s.seqs.top.toNat
  else if off = 0x44002C then s.seqs.low.toNat
  else if off = 0x440030 then boundSlots s % 256
  else 0

/-- The 32-bit register at an offset, 0 where there is none. -/
def reg32 (s : State) (off : Nat) : Nat :=
  match evAt off with
  | some b => (evGet s b).toNat
  | none =>
    if off < 0x10000 then regHif s off
    else if off < 0x60000 then regBeat s off
    else if off < 0x70000 then regShf s off
    else if off < 0x80000 then regOpt s off
    else if off < 0x90000 then regLink s off
    else if off < 0xA0000 then regRt s off
    else if off < 0xB0000 then regCkt s off
    else if off < 0xD0000 then regRmt s off
    else if off < 0xE0000 then regMgt s off
    else if off < 0xF0000 then regPwr s off
    else if off < 0x100000 then regThm s off
    else if off < 0x110000 then regCal s off
    else if off < 0x120000 then regMgt s off
    else if off < 0x400000 then regCkt s off
    else if off < 0x420000 then regMem s off
    else if off < 0x440000 then regArb s off
    else if off < 0x440038 then regSeq s off else 0
/-- The aligned 8-byte word of BAR0 at `a`; before the firmware runs only HIF_BOOT_ and HIF_SERIAL_ respond (R469). -/
def bar0Word (s : State) (a : Nat) : Nat :=
  if !fwUp s && !decide (0x800 ≤ a ∧ a < 0x820) then 0
  else if is64 s a then reg64 s a
  else reg32 s a + reg32 s (a + 4) * 2 ^ 32
/-- Is a read within one aligned 8-byte word (R508)? -/
def bar0Fits (off len : Nat) : Bool := decide (1 ≤ len) && decide (off % 8 + len ≤ 8) && decide (off + len ≤ 0x2000000)
/-- The bytes that a read of BAR0 returns. -/
def bar0Bytes (s : State) (off len : Nat) : List Byte :=
  if bar0Fits off len then ((leBytes 8 (bar0Word s (off / 8 * 8))).drop (off % 8)).take len else List.replicate len 0xFF

end Sys2Proof.Machine
end

