-- ==== Sys2Proof/Machine/RegFile.lean ====
section
/-!
DEFINITION. Writes of BAR0 (chapter 26): the access rules (R508 to R512) and what a write of every register does.
-/

namespace Sys2Proof.Machine

/-! Shapes of a write. -/

/-- A write of a locked field has no effect after the lock, and sets no error bit (R512). -/
def rwl (f : State → State) (s : State) : State := if s.hif.locked then s else f s
/-- A write whose fields must lie in their range: out of it, it is refused with the block's error. -/
def ranged (ok : Bool) (err f : State → State) (s : State) : State := if ok then f s else err s
/-- A register that takes effect only through REG_WRITE (R427, R511). -/
def mgmtOnly (path : RegPath) (f : State → State) (s : State) : State := if path = .mgmt then f s else s
/-- CMD_ERR of MGT_NET_EVENTS: no record is written for it (R505). -/
def netCmdErr (s : State) : State := setEvent s .mgtNet 2
/-- CMD_ERR of MGT_EVENTS. -/
def mgtCmdErr (s : State) : State := event s .mgt 6
/-- CMD_ERR of OPT_EVENTS. -/
def optCmdErr (s : State) : State := event s .opt 11
/-- CMD_ERR of FAB_LINK_EVENTS. -/
def linkCmdErr (p : Nat) (s : State) : State := event s .link 6 p
/-- CMD_ERR of FAB_RMT_EVENTS. -/
def rmtCmdErr (s : State) : State := event s .rmt 3
/-- A write of 1 clears a bit of an event register (R7). -/
def evClear (b : EvBlk) (v : W32) (s : State) : State := evPut s b (evGet s b &&& ~~~v)
/-- A write of HIF_SETUP_LOCK (R375). -/
def setupLock (v : W32) (s : State) : State := if v.getLsbD 0 then { s with hif := { s.hif with locked := true } } else s

/-! The 64-bit and the wider registers. -/

/-- A write of a 64-bit register of the host interface. -/
def hifWrite64 (a : Nat) (v : W64) (s : State) : State :=
  let h := s.hif
  let page := fld v 0 12 == 0
  if a = 0x1010 then rwl (ranged page hifCmdErr (fun s => { s with hif := { h with qtBase := v } })) s
  else if a = 0x1018 then rwl (ranged page hifCmdErr (fun s => { s with hif := { h with dbBase := v } })) s
  else if a = 0x1020 then rwl (ranged (fld v 0 7 == 0) hifCmdErr (fun s => { s with hif := { h with sumBase := v } })) s
  else if a = 0x1028 then rwl (ranged page hifCmdErr (fun s => { s with hif := { h with headBase := v } })) s
  else if a = 0x1040 then { s with hif := { h with bar2Base := BitVec.ofNat 64 (fld v 36 12 * 2 ^ 36) } }
  else if a = 0x1048 then ranged page hifCmdErr (fun s => { s with fr := { s.fr with base := v } }) s
  else if a < 0x3000 then
    match indexAt a 0x2000 0x10 256 with
    | some n =>
      let c := cqGet s n
      ranged (page && !c.en) hifCmdErr (fun s => cqPut s n { c with base := v }) s
    | none => s
  else
    match indexAt a 0x3000 8 128 with
    | some i =>
      if i % 2 = 0 then
        { s with hif := { h with hrgnBase := tblSet (fun _ => 0) h.hrgnBase (i / 2) (BitVec.ofNat 64 (fld v 12 52 * 2 ^ 12)) } }
      else
        let z : W64 := BitVec.ofNat 64 (fld v 12 36 * 2 ^ 12 + fld v 62 2 * 2 ^ 62)
        { s with hif := { h with hrgnSize := tblSet (fun _ => 0) h.hrgnSize (i / 2) z } }
    | none => s

/-- May bank `b` be written: it is not current, nothing drains, no switch is armed (R324)? -/
def bankOpen (s : State) (b : Nat) : Bool := !s.rt.armed && !s.rt.draining && (b == 1) != s.rt.cur
/-- Changes a routing bank. -/
def bankMod (s : State) (b : Nat) (f : RBank → RBank) : State :=
  if b = 0 then { s with rt := { s.rt with bankA := f s.rt.bankA } } else { s with rt := { s.rt with bankB := f s.rt.bankB } }
/-- An 8-byte word of a routing bank. -/
def bankWrite64 (a : Nat) (v : W64) (s : State) : State :=
  let b := (a - 0x91000) / 0x400
  let o := a % 0x400
  ranged (bankOpen s b) rtErr (fun s => bankMod s b (fun x =>
    if o = 0 then { x with dir := BitVec.ofNat 64 (fld v 0 48) }
    else if o < 0x40 then { x with torus := tblSet (fun _ => 0) x.torus ((o - 0x10) / 8) v }
    else if o < 0x80 then { x with field := tblSet (fun _ => 0) x.field ((o - 0x40) / 8) v }
    else { x with grid := tblSet (fun _ => 0) x.grid ((o - 0x80) / 8) v })) s
/-- A 4-byte word of a routing bank: DATELINE, a permit word. -/
def bankWrite32 (a : Nat) (v : W32) (s : State) : State :=
  let b := (a - 0x91000) / 0x400
  let o := a % 0x400
  match indexAt o 0x100 4 128 with
  | some w => ranged (bankOpen s b) rtErr (fun s => bankMod s b (fun x => { x with permit := tblSet (fun _ => 0) x.permit w v })) s
  | none => if o = 8 then ranged (bankOpen s b) rtErr (fun s => bankMod s b (fun x => { x with date := BitVec.ofNat 32 (fld v 0 6) })) s else s

/-- A management address: an IPv4 address and a UDP port. -/
def mgtAddr (v : W64) : W64 := BitVec.ofNat 64 (fld v 0 48)
/-- A write of a 64-bit register of the fabric, the management or the power blocks. -/
def fabWrite64 (path : RegPath) (a : Nat) (v : W64) (s : State) : State :=
  if a = 0x90018 then { s with rt := { s.rt with swBeat := v } }
  else if a = 0x90030 then rankBaseWrite v s
  else if a = 0x90040 then
    ranged (fld v 0 8 == 0) rtErr (fun s => { s with rt := { s.rt with mcBase := BitVec.ofNat 64 (fld v 0 48), groups := [] } }) s
  else if a = 0x90068 then rwl (fun s => { s with rt := { s.rt with resv := v } }) s
  else if 0x91000 ≤ a ∧ a < 0x91800 then bankWrite64 a v s
  else if 0xB1000 ≤ a ∧ a < 0xB1800 then rgnWrite ((a - 0xB1000) / 32) (a / 8 % 4) v s
  else if 0xC1000 ≤ a ∧ a < 0xC2000 then mirWrite ((a - 0xC1000) / 64) (a / 8 % 8) v s
  else if a = 0xD0008 then mgmtOnly path (fun s => { s with lease := { s.lease with renewBeat := v } }) s
  else if a = 0xD0020 then mgmtOnly path (fun s => { s with lease := { s.lease with deadline := v } }) s
  else if a = 0xD1008 then mgmtOnly path (fun s => { s with mgt := { s.mgt with fmAddr := mgtAddr v } }) s
  else if a = 0xD1010 then mgmtOnly path (fun s => { s with mgt := { s.mgt with telAddr := mgtAddr v } }) s
  else if 0xD1040 ≤ a ∧ a < 0xD1080 then
    mgmtOnly path (ranged (decide (fld v 32 6 ≤ 32)) netCmdErr (fun s =>
      { s with mgt := { s.mgt with allow := tblSet (fun _ => 0) s.mgt.allow ((a - 0xD1040) / 8) (BitVec.ofNat 64 (fld v 0 38)) } })) s
  else if a = 0xE0018 then { s with pwr := { s.pwr with ports := v } }
  else
    match indexAt a 0xE1000 8 256 with
    | some n => { s with pwr := { s.pwr with phases := tblSet (fun _ => 0) s.pwr.phases n (BitVec.ofNat 64 (fld v 0 48)) } }
    | none => s

/-- A write of the aligned 8-byte word `a` of a 64-bit or wider register (R509, R510). -/
def write64 (path : RegPath) (a : Nat) (v : W64) (s : State) : State :=
  if a < 0x10000 then hifWrite64 a v s
  else if a = 0x10010 then { s with beat := { s.beat with start := v } }
  else if a = 0x10018 then { s with beat := { s.beat with epochPtp := v } }
  else if a = 0x60008 then
    (if fld v 0 6 = 0 then { s with shf := { s.shf with imageAt := BitVec.ofNat 64 (fld v 0 48) } } else s)
  else if a < 0x400000 then fabWrite64 path a v s
  else if a = 0x410010 then { s with ms := { s.ms with repairAddr := BitVec.ofNat 64 (fld v 0 48) } }
  else if a = 0x411008 then { s with ms := { s.ms with t1500Data := v } }
  else if 0x440000 ≤ a then seqReg a v s else s

/-! The 32-bit registers. -/

/-- HIF_Q_CMD (R378, R399). -/
def queueCmd (hv : HostView) (v : W32) (s : State) : State :=
  if v.getLsbD 16 ∧ v.getLsbD 17 then hifCmdErr s
  else if v.getLsbD 16 then startQueue (fld v 0 10) hv s
  else if v.getLsbD 17 then stopQueue (fld v 0 10) s else s
/-- The boot registers, which respond before the firmware runs too (R469, R484). -/
def bootWrite (off : Nat) (v : W32) (s : State) : State :=
  if off = 0x804 then { s with boot := { s.boot with len := BitVec.ofNat 24 (fld v 0 24) } }
  else if off = 0x808 then bootGo v s else s
/-- A 32-bit register of the host interface. -/
def hifWrite32 (hv : HostView) (off : Nat) (v : W32) (s : State) : State :=
  if off < 0x1000 then bootWrite off v s
  else if off = 0x1000 then rwl (fun s => { s with hif := { s.hif with en := v.getLsbD 0 } }) s
  else if off = 0x1004 then setupLock v s
  else if off = 0x100C then
    rwl (ranged (decide (100 ≤ fld v 0 16)) hifCmdErr (fun s => { s with hif := { s.hif with poll := v.setWidth 16 } })) s
  else if off = 0x1030 then queueCmd hv v s
  else if off = 0x1038 then
    { s with hif := { s.hif with eventVec := BitVec.ofNat 8 (fld v 0 8), faultVec := BitVec.ofNat 8 (fld v 8 8) } }
  else if off = 0x1050 then frCtrl v s
  else if 0x2000 ≤ off ∧ off < 0x3000 ∧ off % 16 = 8 then cqCtrl ((off - 0x2000) / 16) v s else s
/-- A 32-bit register of the sheaf block (R238). (DEDUCED, log entry 56) -/
def shfWrite (off : Nat) (v : W32) (s : State) : State :=
  if off = 0x60000 then shfCtrlWrite v s
  else if off = 0x60004 then each (setBits 4 (fld v 4 4)) (each (setBits 4 (fld v 0 4)) s fullCalOne) programOne
  else if off = 0x6001C then
    { s with shf := { s.shf with jrnlDest := BitVec.ofNat 32 (fld v 0 6 + fld v 16 16 * 2 ^ 16) } }
  else if off = 0x60020 then
    (if 20 ≤ fld v 0 15 ∧ fld v 0 15 ≤ 20000 then { s with shf := { s.shf with jrnlTmo := BitVec.ofNat 16 (fld v 0 15) } } else s)
  else s
/-- A 32-bit register of the optics block (R256). -/
def optWrite (off : Nat) (v : W32) (s : State) : State :=
  let o := s.optics
  let t := (BitVec.ofNat 16 (fld v 0 16)).toInt
  if off = 0x70000 then rwl (fun s => { s with optics := { o with ctrl := v &&& 1 } }) s
  else if off = 0x70004 then
    let s := if v.getLsbD 8 then testCmd (fld v 0 6) s else s
    if v.getLsbD 9 then optSwap (fld v 10 5) s else s
  else if off = 0x70008 then
    rwl (ranged (decide (-900 ≤ t) && decide (t ≤ -300)) optCmdErr
      (fun s => { s with optics := { o with rxTarget := v.setWidth 16 } })) s
  else if off = 0x7000C then
    rwl (ranged (decide (5 ≤ fld v 0 8) && decide (fld v 0 8 ≤ 60)) optCmdErr (fun s => { s with optics := { o with mMin := v.setWidth 8 } })) s
  else if off = 0x70010 then
    rwl (ranged (fld v 0 16 != 0) optCmdErr (fun s => { s with optics := { o with retryLim := v.setWidth 16 } })) s
  else if off = 0x70014 then slewWrite v s else s
/-- FAB_LINK_CMD (R305, R310). -/
def linkCmd (v : W32) (s : State) : State :=
  let p := fld v 0 6
  let acts := b2n (v.getLsbD 8) + b2n (v.getLsbD 13) + b2n (v.getLsbD 14)
  if 1 < acts ∨ portsOf s ≤ p then linkCmdErr p s
  else if v.getLsbD 8 then release p (fld v 9 4) s
  else if v.getLsbD 13 then holdPort p s
  else if v.getLsbD 14 then retrain p s else s
/-- A 32-bit register of the links and the bypass (R310). -/
def linkWrite (off : Nat) (v : W32) (s : State) : State :=
  if off = 0x80000 then linkCmd v s
  else if off = 0x80010 then bypEnable v s
  else if off = 0x80014 then bypCmd (fld v 0 12) (v.getLsbD 12) s else s
/-- A 32-bit register of the routing block (R336). -/
def rtWrite (off : Nat) (v : W32) (s : State) : State :=
  let r := s.rt
  if off = 0x90000 then chipNumWrite v s
  else if off = 0x90004 then sliceWrite v s
  else if off = 0x90008 then
    ranged (fld v 4 4 != 0) rtErr (fun s => { s with rt := { r with ctrl := v &&& 0xF1 } }) s
  else if off = 0x9000C then
    ranged (decide (fld v 16 11 < fld v 0 11) && decide (fld v 0 11 ≤ 1280)) rtErr
      (fun s => throttleAll { s with rt := { r with thr := v &&& 0x07FF07FF } }) s
  else if off = 0x90010 then
    ranged (decide (1563 ≤ fld v 0 14) && decide (fld v 0 14 ≤ 15625)) rtErr (fun s => { s with rt := { r with ageLim := v.setWidth 14 } }) s
  else if off = 0x90014 then
    let s := if v.getLsbD 0 then armSwitch s else s
    if v.getLsbD 1 then { s with rt := { s.rt with armed := false } } else s
  else if off = 0x90024 then { s with rt := { r with drain := v.setWidth 16 } }
  else if off = 0x90038 then rankCountWrite v s
  else if off = 0x9003C then rankInv v s
  else if off = 0x90048 then mcInv v s
  else if off = 0x90070 then seedSliceWrite v s
  else if 0x91000 ≤ off ∧ off < 0x91800 then bankWrite32 off v s else s
/-- FAB_MIR_CMD: one action bit per write (Table 21-9). -/
def mirCmd (v : W32) (s : State) : State :=
  let n := fld v 0 6
  if v.getLsbD 8 ∧ v.getLsbD 9 then mirCmdErr s n
  else if v.getLsbD 8 then rebuild n s
  else if v.getLsbD 9 then resyncCmd n s else s
/-- FAB_FENCE_CMD (R415). -/
def fenceCmd (path : RegPath) (v : W32) (s : State) : State :=
  let c := fld v 0 16
  let s := if v.getLsbD 16 then fenceAdd path c s else s
  let s := if v.getLsbD 17 then fenceRemove path c s else s
  if v.getLsbD 18 then fenceClear path s else s
/-- A 32-bit register of remote operations, mirrors and fences. -/
def rmtWrite (path : RegPath) (off : Nat) (v : W32) (s : State) : State :=
  if off = 0xB0000 then
    ranged (decide (20 ≤ fld v 0 15) && decide (fld v 0 15 ≤ 20000)) rmtCmdErr
      (fun s => { s with rmt := { s.rmt with tmo := BitVec.ofNat 16 (fld v 0 15) } }) s
  else if off = 0xC0000 then fdomWrite path v s
  else if off = 0xC0004 then mirCmd v s
  else if off = 0xC0020 then fenceCmd path v s else s
/-- A 32-bit register of leases, reclaim and the management network (R427, R504). -/
def mgtWrite (path : RegPath) (off : Nat) (v : W32) (s : State) : State :=
  if off = 0xD0010 then renew path v s
  else if off = 0xD0028 then (if v.getLsbD 0 then reclaimGo path s else s)
  else if off = 0xD0038 then
    mgmtOnly path (ranged (decide (64 ≤ v.toNat)) mgtCmdErr (fun s => { s with lease := { s.lease with len := v } })) s
  else if off = 0xD1000 then mgmtOnly path (fun s => { s with mgt := { s.mgt with ip4 := v } }) s
  else if off = 0xD1004 then
    mgmtOnly path (ranged (decide (1 ≤ fld v 0 6) && decide (fld v 0 6 ≤ 32)) netCmdErr
      (fun s => { s with mgt := { s.mgt with ip4cfg := BitVec.ofNat 32 (fld v 0 6) } })) s
  else if off = 0xD1018 then
    ranged (fld v 0 8 != 0) netCmdErr (fun s => { s with mgt := { s.mgt with telDiv := v.setWidth 8 } }) s
  else s
/-- A 32-bit register of power and heat (R453). -/
def pwrWrite (off : Nat) (v : W32) (s : State) : State :=
  if off = 0xE0000 then { s with pwr := { s.pwr with ctrl := v &&& 3 } }
  else if off = 0xE0004 then capWrite v s
  else if off = 0xE0014 then { s with pwr := { s.pwr with floor := v.setWidth 4 } }
  else if off = 0xE0020 then
    rwl (ranged (decide (20 ≤ fld v 0 7) && decide (fld v 0 7 ≤ 80)) pwrCmdErr (fun s => { s with pwr := { s.pwr with droopMv := v.setWidth 7 } })) s
  else if off = 0xF0000 then
    rwl (ranged ((List.range 4).all (fun i => fld v (2 * i) 2 != 3)) thmCmdErr (fun s => { s with thm := { s.thm with ctrl := v &&& 0xFF } })) s
  else if off = 0xF0004 then (if v.getLsbD 16 then retireSensor (fld v 0 7) (fld v 8 3) s else s)
  else s
/-- MEM_REPAIR_CMD (R275 to R281). -/
def repairWrite (v : W32) (s : State) : State :=
  match fld v 0 3 with
  | 1 => repairCmd (onUnit retireUnit) stackOf s
  | 2 => repairCmd (onUnit discardUnit) stackOf s
  | 3 => repairCmd (onUnit softRepair) stackOf s
  | 4 => repairCmd hardRepair repairStack s
  | _ => memCmdErr s
/-- A 32-bit register of the memory system, the arbiters and the sequences (R281, R291, R219). -/
def memWrite32 (off : Nat) (v : W32) (s : State) : State :=
  if off < 0x410000 then
    (match indexAt off 0x400000 4 1024 with
    | some n => placeWrite n v s
    | none => s)
  else if off = 0x410000 then
    rwl (ranged (fld v 8 4 != 0) memCmdErr (fun s => { s with ms := { s.ms with ctrl := v &&& 0xF03 } })) s
  else if off = 0x410008 then repairWrite v s
  else if off = 0x41001C then maintWrite v s
  else if off = 0x411000 then t1500Write v s
  else if 0x420000 ≤ off ∧ off < 0x420400 then
    (match indexAt off 0x420000 4 112 with
    | some i => weightWrite (i / 16) (i % 16) v s
    | none => s)
  else if 0x420400 ≤ off ∧ off < 0x420800 then
    (match indexAt off 0x420400 4 7 with
    | some k => ranged (decide (256 ≤ fld v 0 16)) (fun s => event s .memArb 7 k)
        (fun s => { s with arb := { s.arb with th := tblSet (fun _ => 4096) s.arb.th k (v.setWidth 16) } }) s
    | none => s)
  else if 0x420800 ≤ off ∧ off < 0x420C00 then
    (match indexAt off 0x420800 4 28 with
    | some i =>
      let clear (x : BitVec 128) : BitVec 128 := x &&& ~~~(BitVec.ofNat 128 (v.toNat * 2 ^ (32 * (i % 4))))
      { s with arb := { s.arb with starve := tblMod (fun _ => 0) s.arb.starve (i / 4) clear } }
    | none => s)
  else if 0x440000 ≤ off then seqReg off (v.setWidth 64) s else s

/-- A write of the 32-bit register at `off`; nothing where there is none (R506). -/
def write32 (path : RegPath) (hv : HostView) (off : Nat) (v : W32) (s : State) : State :=
  match evAt off with
  | some b => evClear b v s
  | none =>
    if off < 0x10000 then hifWrite32 hv off v s
    else if off = 0x10000 then beatCtrl v s
    else if 0x60000 ≤ off ∧ off < 0x70000 then shfWrite off v s
    else if 0x70000 ≤ off ∧ off < 0x80000 then optWrite off v s
    else if 0x80000 ≤ off ∧ off < 0x90000 then linkWrite off v s
    else if 0x90000 ≤ off ∧ off < 0xA0000 then rtWrite off v s
    else if 0xB0000 ≤ off ∧ off < 0xD0000 then rmtWrite path off v s
    else if 0xD0000 ≤ off ∧ off < 0xE0000 then mgtWrite path off v s
    else if 0xE0000 ≤ off ∧ off < 0x100000 then pwrWrite off v s
    else if off = 0x101008 then { s with flash := { s.flash with rdAddr := BitVec.ofNat 32 (fld v 6 20 * 64) } }
    else if 0x400000 ≤ off then memWrite32 off v s else s

/-! The access rules. -/

/-- A 4-byte write: one that reaches half of a 64-bit register is refused (R509). -/
def store32 (path : RegPath) (hv : HostView) (off : Nat) (v : W32) (s : State) : State :=
  if is64 s (off / 8 * 8) then hifCmdErr s else write32 path hv off v s
/-- An 8-byte write: a 64-bit register whole, or two 4-byte writes, the lower first (R508). -/
def store64 (path : RegPath) (hv : HostView) (off : Nat) (v : W64) (s : State) : State :=
  if is64 s off then write64 path off v s
  else write32 path hv (off + 4) (BitVec.ofNat 32 (fld v 32 32)) (write32 path hv off (v.setWidth 32) s)
/-- A write of BAR0: `enabled` says that every byte enable is set (R508). Before the firmware runs only the boot registers
respond (R469). -/
def barStore (path : RegPath) (hv : HostView) (off : Nat) (bytes : List Byte) (enabled : Bool) (s : State) : State :=
  let n := bytes.length
  let ok := enabled && ((n == 4 && off % 4 == 0) || (n == 8 && off % 8 == 0))
  if 0x2000000 ≤ off then s
  else if !fwUp s then
    (if ok && decide (0x800 ≤ off ∧ off < 0x820) then
      let s := bootWrite off (BitVec.ofNat 32 (leAt bytes 0 4)) s
      if n = 8 then bootWrite (off + 4) (BitVec.ofNat 32 (leAt bytes 4 4)) s else s
    else s)
  else if !ok then hifCmdErr s
  else if n = 4 then store32 path hv off (BitVec.ofNat 32 (leNat bytes)) s
  else store64 path hv off (BitVec.ofNat 64 (leNat bytes)) s

/-! BAR2 (R373, R469). -/

/-- What a BAR2 or debug read of a package address gives. -/
inductive PkgRead where
  | bytes (l : List Byte)
  | abort
  deriving DecidableEq, Repr

/-- All ones. -/
def ones (n : Nat) : List Byte := List.replicate n 0xFF
/-- Puts the lines of a set, number `i` and up, into ways that are still free, each into one (Table 14-4). -/
def tagWays (set : List Nat) : Nat → List Nat → List (Option Nat) → List (Option Nat)
  | _, [], ways => ways
  | i, n :: t, ways =>
    let free := (List.range 16).filter (fun w => (ways.getD w none).isNone)
    let w := free.getD (Config.tagWay set i % max 1 free.length) 0
    tagWays set (i + 1) t (ways.set w (some n))
/-- An entry of the tag view of die `d` (Table 14-4): every held line stands in one way of its set, and which is left open. -/
def tagWord (s : State) (d k : Nat) : Nat :=
  let l := ((cacheGet s d).filter (fun x => lineSet x == k / 16)).foldl (fun l x => insertAsc x l) []
  match (tagWays l 0 l (List.replicate 16 none)).getD (k % 16) none with
  | some x => x % 2 ^ 41 * 2 ^ 7 + 2 ^ 63
  | none => 0
/-- The byte at an offset of the die-cache control window (Table 14-4). -/
def cacheByte (s : State) (d o : Nat) : Byte :=
  let w := if o < 48 then (tblGet (fun _ => 0) s.coh.ctrs (6 * d + o / 8)).toNat else tagWord s d ((o - 0x100000) / 8)
  BitVec.ofNat 8 (w / 2 ^ (8 * (o % 8)))
/-- The byte at an offset of the sheaf control window (Table 12-6). -/
def sheafByte (s : State) (d o : Nat) : Byte :=
  let x := sheafGet s d
  if o < 33344 then
    x.imageByte o
  else Config.sheafView d x.epoch.toNat o
/-- A read of package memory by the host or the debug port. (DEDUCED, log entry 96) -/
def pkgRead (s : State) (a len : Nat) : PkgRead × State :=
  if len = 0 then (.bytes [], s)
  else
    match mapRefusal s a len with
    | some x => (.bytes (ones len), refusedAccess s x 0)
    | none =>
      match decodeAddr s a with
      | .hbm => if readFails s a len then (.abort, noteUes s a len) else (.bytes (memRead s.mem a len), s)
      | .dieCache d o => (.bytes ((List.range len).map (fun i => cacheByte s d (o + i))), s)
      | .sheafCtl d o => (.bytes ((List.range len).map (fun i => sheafByte s d (o + i))), s)
      | .mirror off => (.bytes (bar0Bytes s off len), if bar0Fits off len then s else hifCmdErr s)
      | _ => (.bytes (memRead s.mem a len), s)
/-- A write of package memory by the host or the debug port: a home write in HBM (R42), a write from outside in an engine
window (R77), no effect in a read-only view, a BAR0 write in the register mirror (R511). -/
def pkgWrite (path : RegPath) (hv : HostView) (a : Nat) (bs : List Byte) (s : State) : State :=
  let n := bs.length
  if n = 0 then s
  else
    match mapRefusal s a n with
    | some x => refusedAccess s x 0
    | none =>
      match decodeAddr s a with
      | .hbm => if mirHolds s a n || touchesLost s a n then s else hbmWrite (notePartial s a n) a bs
      | .window e acc off => windowWrite s e acc off bs
      | .mirror off => barStore path hv off bs true s
      | _ => s
/-- The size of the BAR2 window. -/
def bar2Size : Nat := 2 ^ 36
/-- The size of the boot buffer. -/
def bootBufSize : Nat := 0x800000
/-- What a host request is answered with that R373 does not let through to the package: one of BAR4, or an AtomicOp. -/
def hostGet (off : Nat) (req : HostReq) (get : Nat → Nat → State → State) (s : State) : State :=
  match req with
  | .window len => get off len s
  | .table len => if fwUp s then bar4Get off len s else s
  | .atomic => emit s .barUnsupported
/-- A host read through BAR2. -/
def bar2Get (off len : Nat) (s : State) : State :=
  if bar2Size < off + len then s
  else if !fwUp s then
    emit s (.bar ((List.range len).map (fun i => if off + i < bootBufSize then tblGet (fun _ => 0) s.boot.buf (off + i) else 0xFF)))
  else
    match pkgRead s (s.hif.bar2Base.toNat + off) len with
    | (.bytes l, s) => emit s (.bar l)
    | (.abort, s) => emit s .barAbort
/-- A write of the boot buffer, dropped while the image in it is being verified. (DEDUCED, log entry 97) -/
def bootPut (off : Nat) (bs : List Byte) (s : State) : State :=
  if s.boot.stage = 3 then s
  else
    let put (t : Tbl Byte) : Tbl Byte :=
      (List.range bs.length).foldl (fun t i => if off + i < bootBufSize then tblSet (fun _ => 0) t (off + i) (bs.getD i 0) else t) t
    { s with boot := { s.boot with buf := put s.boot.buf } }
/-- A host write through BAR2. -/
def bar2Put (hv : HostView) (off : Nat) (bs : List Byte) (s : State) : State :=
  if bar2Size < off + bs.length then s
  else if !fwUp s then bootPut off bs s
  else pkgWrite .mirror hv (s.hif.bar2Base.toNat + off) bs s
/-- A host read of BAR0. (DEDUCED, log entry 98) -/
def bar0Get (off len : Nat) (s : State) : State :=
  emit (if bar0Fits off len || !fwUp s then s else hifCmdErr s) (.bar (bar0Bytes s off len))

/-! The rows of the table. -/

/-- HIF_SETUP_LOCK (R375). -/
def execHifSetupLock (v : W32) (s : State) : Host.Outcome State Fault Refusal := run s (fwOnly (setupLock v))
/-- REG_WRITE_OTHER (R508): a write of the host. -/
def execRegWriteOther (off : Nat) (bytes : List Byte) (enabled : Bool) (hv : HostView) (s : State) : Host.Outcome State Fault Refusal :=
  onFabric (barStore .host hv off bytes enabled) s
/-- BAR0_READ (R508). -/
def execBar0Read (off len : Nat) (s : State) : Host.Outcome State Fault Refusal := run s (bar0Get off len)
/-- BAR2_READ (R373). -/
def execBar2Read (off : Nat) (req : HostReq) (s : State) : Host.Outcome State Fault Refusal := run s (hostGet off req bar2Get)
/-- BAR2_WRITE (R373). -/
def execBar2Write (off : Nat) (bytes : List Byte) (hv : HostView) (s : State) : Host.Outcome State Fault Refusal :=
  onFabric (bar2Put hv off bytes) s

end Sys2Proof.Machine
end

