-- ==== Sys2Proof/Machine/Manage.lean ====
section
/-!
DEFINITION. Management messages, registration, the sending of fault records and telemetry (chapter 25, R486 to R494).
-/

namespace Sys2Proof.Machine

/-! Messages. -/

/-- The destination that MGT_FM_ADDR or MGT_TEL_ADDR names: limited broadcast where it is 0, port 47,640 where it gives none (R487).
(DEDUCED, log entry 124) -/
def destOf (a : W64) : W64 :=
  if a = 0 then BitVec.ofNat 64 (0xFFFFFFFF + 47640 * 2 ^ 32)
  else if fld a 32 16 = 0 then BitVec.ofNat 64 (a.toNat + 47640 * 2 ^ 32) else a
/-- Sends a message to the fault manager. -/
def sendFm (type : Byte) (payload : List Byte) (s : State) : State :=
  let m : MgmtMsg := ⟨none, 1, type, 0, s.mgt.seqn, BitVec.ofNat 32 payload.length, payload⟩
  emit { s with mgt := { s.mgt with seqn := s.mgt.seqn + 1 } } (.mgmt (destOf s.mgt.fmAddr) m)
/-- Answers a request (R488). -/
def reqAnswer (q : MgmtMsg) (status : Byte) (payload : List Byte) (s : State) : State :=
  emit s (.mgmt 0 ⟨q.src, 1, q.type, status, q.seqn, BitVec.ofNat 32 payload.length, payload⟩)
/-- Does an entry MGT_ALLOW_n match a source address? -/
def allowMatch (ip : W32) (v : W64) : Bool :=
  let n := fld v 32 6
  n != 0 && decide (n ≤ 32) && ip.toNat / 2 ^ (32 - n) == fld v 0 32 / 2 ^ (32 - n)
/-- Is a request accepted (R487)? -/
def mgmtAllowed (s : State) (q : MgmtMsg) : Bool :=
  let l := (List.range 8).map (fun n => tblGet (fun _ => 0) s.mgt.allow n)
  match q.src with
  | none => true
  | some ip => l.all (fun v => v == 0) || l.any (allowMatch ip)
/-- A request that the allow list shuts out. -/
def reqDenied (q : MgmtMsg) (s : State) : State :=
  reqAnswer q 1 [] (setEvent { s with mgt := { s.mgt with deny := satInc s.mgt.deny } } .mgtNet 1)
/-- A request of type `type`: BUSY until the firmware runs, DENIED or MALFORMED, or `f` (R487, R488).
(DEDUCED, log entry 123) -/
def mgmtRow (type : Byte) (f : MgmtMsg → State → State) (q : MgmtMsg) (s : State) : Host.Outcome State Fault Refusal :=
  if s.board.coreUndef then .fault .coreUndefined
  else .next (if q.type ≠ type ∨ s.board.aux = false then s
    else if s.board.held || !fwUp s then reqAnswer q 3 [] s
    else if !mgmtAllowed s q then reqDenied q s
    else if q.ver ≠ 1 ∨ q.len.toNat ≠ q.payload.length then reqAnswer q 2 [] s
    else settleSteps (settle (drive (f q s))))

/-! REG_READ, REG_WRITE and DESC_EXEC (R489, R490). -/

/-- ADDR. -/
def mgAddr (q : MgmtMsg) : Nat := leAt q.payload 0 8
/-- COUNT. -/
def mgCount (q : MgmtMsg) : Nat := leAt q.payload 8 4
/-- Do ADDR and COUNT name words of BAR0? -/
def mgOk (q : MgmtMsg) : Bool :=
  decide (1 ≤ mgCount q) && decide (mgCount q ≤ 256) && decide (mgAddr q + 4 * mgCount q ≤ 0x2000000)
/-- REG_READ: `n` words from an offset; reading changes nothing but CMD_ERR where a word is no read of R508. -/
def readWords (s : State) (off : Nat) : Nat → List Byte
  | 0 => []
  | n + 1 => bar0Bytes s off 4 ++ readWords s (off + 4) n
/-- REG_READ. -/
def regReadMsg (q : MgmtMsg) (s : State) : State :=
  if q.payload.length ≠ 12 ∨ mgOk q = false then reqAnswer q 2 [] s
  else
    let l := readWords s (mgAddr q) (mgCount q)
    reqAnswer q 0 l (if (List.range (mgCount q)).all (fun i => bar0Fits (mgAddr q + 4 * i) 4) then s else hifCmdErr s)
/-- REG_WRITE: the words in ascending order, a pair that covers a 64-bit register as one 8-byte write (R489, R509, R510). -/
def regWords (hv : HostView) (s : State) (off : Nat) : List W32 → State
  | [] => s
  | [w] => barStore .mgmt hv off (leBytes 4 w.toNat) true s
  | w :: x :: t =>
    if off % 8 = 0 ∧ is64 s off = true then
      regWords hv (barStore .mgmt hv off (leBytes 4 w.toNat ++ leBytes 4 x.toNat) true s) (off + 8) t
    else regWords hv (barStore .mgmt hv off (leBytes 4 w.toNat) true s) (off + 4) (x :: t)
/-- The words of a REG_WRITE. -/
def mgWords (q : MgmtMsg) : List W32 := (List.range (mgCount q)).map (fun i => BitVec.ofNat 32 (leAt q.payload (12 + 4 * i) 4))
/-- REG_WRITE. (DEDUCED, log entry 125) -/
def regWriteMsg (hv : HostView) (q : MgmtMsg) (s : State) : State :=
  if mgOk q = false ∨ q.payload.length ≠ 12 + 4 * mgCount q then reqAnswer q 2 [] s
  else reqAnswer q 0 [] (regWords hv s (mgAddr q) (mgWords q))
/-- DESC_EXEC: the status of a descriptor and the state it leaves. A lapsed lease or a cut-off stops it like any descriptor
that has not started (R414, R423). (DEDUCED, log entry 104) -/
def descExecRun (d : List Byte) (s : State) : Byte × State :=
  let t : QTab := { QTab.zero with privF := true }
  let cut : List Byte := (if cutOff s = true then [stReclaimed] else [])
    ++ (if quiet s then [stLease] else [])
  if dOp d = 0x40 then
    let c := setupCheck s t d
    let code := pickStatus ((if c.form then [] else [stMalformed]) ++ c.codes ++ cut)
    if code = 0 then (stDone, cktInstall s d) else (code, setupRefused s)
  else if dOp d = 0x41 then
    let c := teardownCheck s t d
    let code := pickStatus ((if c.form then [] else [stMalformed]) ++ c.codes ++ cut)
    if code = 0 then (stDone, cktRemove s d) else (code, s)
  else (stMalformed, s)
/-- DESC_EXEC (R490). The record has QUEUE 0; PHASE and HEAD, which belong to a ring and a queue, are left open.
(DESIGN CHOICE, log entry 105) -/
def descExecMsg (q : MgmtMsg) (s : State) : State :=
  if q.payload.length ≠ 64 then reqAnswer q 2 [] s
  else
    let d := q.payload
    let (st, s) := descExecRun d s
    let (x, s) := drawFree s
    let rest := leBytes 4 0 ++ [d.getD 0 0] ++ leBytes 3 0 ++ leBytes 8 s.beat.now.toNat ++ leBytes 8 0
    reqAnswer q 0 (recHeader (dSeq d) st (x.getLsbD 16) 0 0 (fld x 0 16) ++ rest) s

/-! Registration (R491). -/

/-- FLAGS of Table 25-4. -/
def regFlags (s : State) : Byte :=
  BitVec.ofNat 8 (b2n s.boot.degraded + 2 * b2n s.boot.uncal + 4 * b2n s.inv.lost + 8 * b2n s.boot.attestOk + 16 * s.dbg.level.toNat
    + 64 * b2n s.dbg.hold)
/-- The payload of REGISTER (Table 25-4). -/
def regPayload (s : State) : List Byte :=
  leBytes 16 Config.serial.toNat ++ leBytes 2 s.rt.chip.toNat ++ [if s.opt = .m8l8 then 1 else 0, 0xB0, regFlags s, BitVec.ofNat 8 s.boot.stage,
    s.lease.st.setWidth 8, 0] ++ leBytes 4 s.fr.fseq.toNat ++ leBytes 32 s.boot.meas1.toNat ++ leBytes 4 0
/-- REGISTER is sent: until it is acknowledged, and afterwards when a flag has changed. -/
def registerSend (s : State) : State :=
  if s.boot.stage < 12 ∨ 13 < s.boot.stage ∨ (s.mgt.acked = true ∧ s.mgt.flags = regFlags s) then s
  else sendFm 0x10 (regPayload s) { s with mgt := { s.mgt with flags := regFlags s } }
/-- REGISTER_ACK; one that comes outside REGISTER is ignored (R503). (DEDUCED, log entry 126) -/
def registerAck (s : State) : State := if s.boot.stage = 12 then { s with mgt := { s.mgt with acked := true } } else s

/-! Fault records (R493). -/

/-- A FAULT message. -/
def sendFault (s : State) (l : List FaultRec) : State := if l.isEmpty then s else sendFm 0x20 (l.foldl (fun b r => b ++ recBytes r) []) s
/-- Marks the first `n` records that have not been sent as sent. -/
def markSent : Nat → List (FaultRec × Bool) → List (FaultRec × Bool)
  | 0, l => l
  | _ + 1, [] => []
  | n + 1, x :: t => if x.2 then x :: markSent (n + 1) t else (x.1, true) :: markSent n t
/-- Up to 16 records that have not been sent go out, once the device is registered. -/
def faultSend (s : State) : State :=
  if !fwUp s || !s.mgt.acked then s
  else
    let l := ((s.mgt.queue.filter (fun x => !x.2)).take 16).map (fun x => x.1)
    sendFault { s with mgt := { s.mgt with queue := markSent 16 s.mgt.queue } } l
/-- The records that were sent and are not covered go out again, 16 to a message. -/
def faultResend (s : State) : State :=
  if !fwUp s || !s.mgt.acked then s
  else
    let l := (s.mgt.queue.filter (fun x => x.2)).map (fun x => x.1)
    each (chunksOf 16 (l.length / 16 + 1) l) s sendFault
/-- Does FSEQ `a` come at or before `b`? -/
def fseqCovers (a b : W32) : Bool := (b - a).toNat < 2 ^ 31
/-- FAULT_ACK: the records up to an FSEQ are covered; one that covers an FSEQ not yet sent is ignored (R503). -/
def faultAck (n : W32) (s : State) : State :=
  if !fwUp s || fseqCovers s.fr.fseq n || s.mgt.queue.any (fun x => !x.2 && fseqCovers x.1.fseq n) then s
  else { s with mgt := { s.mgt with queue := s.mgt.queue.filter (fun x => !fseqCovers x.1.fseq n) } }

/-! Telemetry (R330, R494). -/

/-- FAB_CMAP_p of the window that closes. -/
def cmapWord (s : State) (p : Nat) : W64 :=
  if s.rt.samples = 0 then 0
  else BitVec.ofNat 64 ((List.range 8).foldl (fun n v =>
    n + min 255 (255 * tblGet (fun _ => 0) s.rt.occ (8 * p + v) / (s.rt.samples * vcRoom v)) * 2 ^ (8 * v)) 0)
/-- The congestion map is replaced. -/
def cmapClose (s : State) : State :=
  let m : Tbl W64 := (List.range (portsOf s)).foldl (fun t p => tblSet (fun _ => 0) t p (cmapWord s p)) []
  { s with rt := { s.rt with cmap := m, cmapBeat := s.beat.now, occ := [], samples := 0 } }
/-- The state code of a tiller (Table 25-11). -/
def runCode : RunSt → Nat
  | .stopped => 0 | .running => 1 | .halted => 2 | .faulted => 3 | .quiet => 4
/-- The hottest stack, the lowest of those that share the temperature. (DEDUCED, log entry 112) -/
def hottest (s : State) : Nat :=
  let t (j : Nat) : Int := tblGet (fun _ => 0) s.thm.hbm j
  (List.range (stacksOf s)).foldl (fun m j => if t m < t j then j else m) 0
/-- The values of the core section, in the order of Table 25-7. -/
def telCore (s : State) : List Nat :=
  [s.beat.now.toNat, beatStatus s, b2n (s.beat.st == .holdover || s.beat.st == .conflict), s.lease.st.toNat, b2n s.dbg.hold, s.pwr.pkg.toNat]
    ++ (List.range 4).map (pwrDie s) ++ [pwrPace s] ++ (List.range 4).map (thmDie s) ++ [hottest s] ++ (List.range 4).map (sheafStatus s)
    ++ (List.range 7).map (fun k => (tblGet (fun _ => 0) s.arb.starve k).toNat) ++ (List.range 64).map (fun e => runCode (engGet s e).st)
/-- The detail sections: counters, thermal, optical, congestion. -/
def telDetail (s : State) : List (List Byte) :=
  let cat (l : List (List Byte)) : List Byte := l.foldl (fun a b => a ++ b) []
  [cat ((List.range 64).map (fun e => cat ((List.range 21).map (fun c => leBytes 6 (ctrSeen s e c (21 * e + c)).toNat)))),
   cat ((List.range 72).map (fun z => leBytes 4 (thmZone s z)) ++ (List.range 10).map (fun j => leBytes 4 (thmHbm s j))),
   cat ((List.range 576).map (fun i => leBytes 4 (if i / 9 < portsOf s then optLane s (i / 9) (i % 9) else 0))),
   cat ((List.range 64).map (fun p => leBytes 8 (tblGet (fun _ => 0) s.rt.cmap p).toNat))]
/-- A telemetry window closes. (DEDUCED, log entry 127) -/
def telemetry (s : State) : State :=
  if s.beat.now.toNat % 64 ≠ 0 then s
  else
    let s := cmapClose s
    if !fwUp s then s
    else
      let due := decide (s.mgt.telLeft ≤ 1)
      let s' := { s with mgt := { s.mgt with telLeft := if due then s.mgt.telDiv.toNat else s.mgt.telLeft - 1 } }
      emit { s' with free := if due then s.free + 1344 else s.free }
        (.telemetry (destOf s.mgt.telAddr) (telCore s) (if due then telDetail s else []))

/-! The rows of the table. -/

/-- REG_READ (R489). -/
def execRegRead (msg : MgmtMsg) (s : State) : Host.Outcome State Fault Refusal := mgmtRow 0x01 regReadMsg msg s
/-- REG_WRITE (R489). -/
def execRegWrite (msg : MgmtMsg) (hv : HostView) (s : State) : Host.Outcome State Fault Refusal := mgmtRow 0x02 (regWriteMsg hv) msg s
/-- DESC_EXEC (R490). -/
def execDescExec (msg : MgmtMsg) (s : State) : Host.Outcome State Fault Refusal := mgmtRow 0x03 descExecMsg msg s
/-- REGISTER_SEND (R491). -/
def execRegisterSend (s : State) : Host.Outcome State Fault Refusal := run s registerSend
/-- REGISTER_ACK (R491). -/
def execRegisterAck (s : State) : Host.Outcome State Fault Refusal := run s registerAck
/-- FAULT_SEND (R493). -/
def execFaultSend (s : State) : Host.Outcome State Fault Refusal := run s faultSend
/-- FAULT_RESEND (R493). -/
def execFaultResend (s : State) : Host.Outcome State Fault Refusal := run s faultResend
/-- FAULT_ACK (R493). -/
def execFaultAck (fseq : W32) (s : State) : Host.Outcome State Fault Refusal := run s (faultAck fseq)
/-- TELEMETRY_WINDOW (R494). -/
def execTelemetryWindow (s : State) : Host.Outcome State Fault Refusal := run s telemetry

end Sys2Proof.Machine
end

