-- ==== Sys2Proof/Machine/Attest.lean ====
section
/-!
DEFINITION. Attestation: the SPDM 1.3 responder (R495, R496). The layouts of the messages are those of DMTF DSP0274 (PRESUMED: the
spec names the standard and does not repeat them).
-/

namespace Sys2Proof.Machine

/-! Messages. -/

/-- Byte `i` of a request. -/
def rqByte (l : List Byte) (i : Nat) : Nat := (l.getD i 0).toNat
/-- The request code. -/
def rqCode (l : List Byte) : Nat := rqByte l 1
/-- The request codes the device supports. -/
def rqKnown : List Nat := [0x81, 0x82, 0x83, 0x84, 0xE0, 0xE1, 0xE3]
/-- An ERROR response. -/
def spdmError (q : MgmtMsg) (code data : Nat) (s : State) : State :=
  reqAnswer q 0 [if s.spdm.version then 0x13 else 0x10, 0x7F, BitVec.ofNat 8 code, BitVec.ofNat 8 data] s
/-- InvalidRequest. -/
def spdmInvalid (q : MgmtMsg) (s : State) : State := spdmError q 0x01 0 s
/-- UnexpectedRequest. -/
def spdmUnexpected (q : MgmtMsg) (s : State) : State := spdmError q 0x04 0 s
/-- Unspecified. -/
def spdmUnspecified (q : MgmtMsg) (s : State) : State := spdmError q 0x05 0 s

/-- An SPDM message (Table 25-3): BUSY until the firmware runs, DENIED where the allow list shuts its source out, MALFORMED where its header
does not fit, or `f` (R487, R488). One that came over MCTP has no source and a header of no other consequence.
(PRESUMED, log entry 128) -/
def spdmMsg (f : MgmtMsg → State → State) (q : MgmtMsg) (s : State) : Host.Outcome State Fault Refusal :=
  if s.board.coreUndef then .fault .coreUndefined
  else .next (if q.type ≠ 0x40 ∨ s.board.aux = false then s
    else if s.board.held || !fwUp s then reqAnswer q 3 [] s
    else if !mgmtAllowed s q then reqDenied q s
    else if q.ver ≠ 1 ∨ q.len.toNat ≠ q.payload.length then reqAnswer q 2 [] s
    else f q s)
/-- A request with code `code`: the version of an agreed exchange, the state that the exchange must have come to, then `f`. -/
def spdmRow (code : Nat) (ready : Spdm → Bool) (f : MgmtMsg → State → State) : MgmtMsg → State → Host.Outcome State Fault Refusal :=
  spdmMsg (fun q s =>
    let l := q.payload
    if rqCode l ≠ code then s
    else if l.length < 4 then spdmInvalid q s
    else if code ≠ 0x84 ∧ s.spdm.version = true ∧ rqByte l 0 ≠ 0x13 then spdmError q 0x41 0 s
    else if !ready s.spdm then spdmUnexpected q s
    else f q s)

/-! The agreement: GET_VERSION, GET_CAPABILITIES, NEGOTIATE_ALGORITHMS. -/

/-- VERSION: one entry, 1.3. The exchange begins anew. -/
def spdmVersion (q : MgmtMsg) (s : State) : State :=
  let l := q.payload
  if rqByte l 0 ≠ 0x10 then spdmError q 0x41 0 s
  else
    let r : List Byte := [0x10, 0x04, 0, 0, 0, 1, 0x00, 0x13]
    reqAnswer q 0 r { s with spdm := ⟨true, false, false, l ++ r, [], []⟩ }
/-- The capability flags: CERT_CAP, CHAL_CAP, MEAS_CAP with signature. -/
def spdmFlags : Nat := 0x02 + 0x04 + 0x10
/-- CAPABILITIES: CTExponent 19. -/
def spdmCapabilities (q : MgmtMsg) (s : State) : State :=
  let l := q.payload
  if l.length ≠ 20 then spdmInvalid q s
  else
    let r : List Byte := [0x13, 0x61, 0, 0, 0, 19, 0, 0] ++ leBytes 4 spdmFlags ++ leBytes 4 Config.spdmSizes.1 ++ leBytes 4 Config.spdmSizes.2
    reqAnswer q 0 r { s with spdm := { s.spdm with caps := true, algs := false, trans := s.spdm.trans ++ l ++ r } }
/-- The extended asymmetric algorithm that the device offers: registry 4, the enterprise number 61,418, algorithm 1. -/
def spdmExt : List Byte := [4, 0] ++ leBytes 4 61418 ++ leBytes 2 1
/-- Does a NEGOTIATE_ALGORITHMS offer the device's extended algorithm? -/
def spdmOffersExt (l : List Byte) : Bool := (List.range (rqByte l 28)).any (fun i => (l.drop (32 + 8 * i)).take 8 == spdmExt)
/-- ALGORITHMS: of what was offered, SHA-256, DMTF measurements hashed with SHA-256, no base asymmetric algorithm and the extended one. -/
def spdmAlgorithms (q : MgmtMsg) (s : State) : State :=
  let l := q.payload
  if l.length < 32 ∨ leAt l 4 2 ≠ l.length then spdmInvalid q s
  else
    let dmtf := (leAt l 6 1).testBit 0
    let sha := (leAt l 12 4).testBit 0
    let ext := spdmOffersExt l
    let body : List Byte := [if dmtf then 1 else 0, 0] ++ leBytes 4 (if dmtf then 2 else 0) ++ leBytes 4 0 ++ leBytes 4 (b2n sha) ++ leBytes 12 0
      ++ [if ext then 1 else 0, 0, 0, 0] ++ (if ext then spdmExt else [])
    let r : List Byte := [0x13, 0x63, 0, 0] ++ leBytes 2 (6 + body.length) ++ body
    reqAnswer q 0 r { s with spdm := { s.spdm with algs := true, trans := s.spdm.trans ++ l ++ r, chal := [], meas := [] } }

/-! Certificates. -/

/-- The chain of slot 0, from the vendor partition. -/
def spdmChain (s : State) : List Byte := Config.spdmChain (flashRead s 0 0x400000)
/-- A response that belongs to the transcript of CHALLENGE; a request other than GET_MEASUREMENTS ends the measurement transcript. -/
def spdmChal (q : MgmtMsg) (r : List Byte) (s : State) : State :=
  reqAnswer q 0 r { s with spdm := { s.spdm with chal := s.spdm.chal ++ q.payload ++ r, meas := [] } }
/-- DIGESTS. -/
def spdmDigests (q : MgmtMsg) (s : State) : State :=
  spdmChal q ([0x13, 0x01, 1, 1] ++ sha256 (spdmChain s)) s
/-- CERTIFICATE: a part of the chain of slot 0. -/
def spdmCertificate (q : MgmtMsg) (s : State) : State :=
  let l := q.payload
  let c := spdmChain s
  let off := leAt l 4 2
  if l.length ≠ 8 ∨ rqByte l 2 % 16 ≠ 0 ∨ c.length ≤ off then spdmInvalid q s
  else
    let p := (c.drop off).take (leAt l 6 2)
    spdmChal q ([0x13, 0x02, 0, 0] ++ leBytes 2 p.length ++ leBytes 2 (c.length - off - p.length) ++ p) s

/-! Measurements (Table 25-8). -/

/-- A measurement block: index, DMTF format, its type and value. -/
def measBlock (i type : Nat) (v : List Byte) : List Byte :=
  [BitVec.ofNat 8 i, 1] ++ leBytes 2 (v.length + 3) ++ [BitVec.ofNat 8 type] ++ leBytes 2 v.length ++ v
/-- Measurement block `i`. -/
def measAt (s : State) (i : Nat) : List Byte :=
  if i = 1 then measBlock 1 0x00 (leBytes 32 s.boot.meas0.toNat)
  else if i = 2 then measBlock 2 0x01 (leBytes 32 s.boot.meas1.toNat)
  else if i = 3 then measBlock 3 0x03 (leBytes 32 s.boot.meas2.toNat)
  else measBlock 4 0x85 [s.dbg.level.setWidth 8]
/-- The blocks that `p` selects, in order. -/
def measBlocks (s : State) (p : Nat → Bool) : List Byte := ([1, 2, 3, 4].filter p).foldl (fun a i => a ++ measAt s i) []
/-- Draws a nonce of 32 bytes. (DEDUCED, log entry 129) -/
def drawNonce (s : State) : List Byte × State :=
  ((List.range 4).foldl (fun a i => a ++ leBytes 8 (Config.freeWord (s.free + i)).toNat) [], { s with free := s.free + 4 })
/-- Signs a transcript with the key of R473. -/
def spdmSign (s : State) (t : List Byte) : List Byte := Config.slhSign s.boot.keySeeds t
/-- MEASUREMENTS. -/
def spdmMeasurements (q : MgmtMsg) (s : State) : State :=
  let l := q.payload
  let attr := rqByte l 2
  let sig := attr.testBit 0
  let op := rqByte l 3
  if l.length ≠ (if sig then 45 else 12) ∨ (sig = true ∧ rqByte l 36 % 16 ≠ 0) ∨ (4 < op ∧ op ≠ 0xFF) then spdmInvalid q s
  else if sig = true ∧ s.boot.attestOk = false then spdmUnspecified q s
  else
    let p (i : Nat) : Bool := op == 0xFF || i == op
    let m := measBlocks s p
    let n := ([1, 2, 3, 4].filter p).length
    let (nonce, s) := drawNonce s
    let ctx := l.drop (l.length - 8)
    let r : List Byte := [0x13, 0x60, if op = 0 then 4 else 0, 0, BitVec.ofNat 8 n] ++ leBytes 3 m.length ++ m ++ nonce ++ leBytes 2 0 ++ ctx
    let t := s.spdm.meas ++ l ++ r
    if sig then reqAnswer q 0 (r ++ spdmSign s (s.spdm.trans ++ t)) { s with spdm := { s.spdm with meas := [] } }
    else reqAnswer q 0 r { s with spdm := { s.spdm with meas := t } }
/-- CHALLENGE_AUTH. -/
def spdmChallenge (q : MgmtMsg) (s : State) : State :=
  let l := q.payload
  let kind := rqByte l 3
  if l.length ≠ 44 ∨ rqByte l 2 % 16 ≠ 0 ∨ ¬ (kind = 0 ∨ kind = 1 ∨ kind = 0xFF) then spdmInvalid q s
  else if s.boot.attestOk = false then spdmUnspecified q s
  else
    let (nonce, s) := drawNonce s
    let sum := if kind = 0 then [] else sha256 (measBlocks s (fun i => kind == 0xFF || Config.tcbBlock i))
    let r : List Byte := [0x13, 0x03, 0, 1] ++ sha256 (spdmChain s) ++ nonce ++ sum ++ leBytes 2 0 ++ l.drop 36
    let t := s.spdm.trans ++ s.spdm.chal ++ l ++ r
    reqAnswer q 0 (r ++ spdmSign s t) { s with spdm := { s.spdm with chal := [], meas := [] } }
/-- Any other request: ERROR with UnsupportedRequest. -/
def spdmOther : MgmtMsg → State → Host.Outcome State Fault Refusal :=
  spdmMsg (fun q s => if rqKnown.contains (rqCode q.payload) then s else spdmError q 0x07 (rqCode q.payload) s)

/-- An exchange may begin at any time. -/
def anyTime (_ : Spdm) : Bool := true
/-- A version has been agreed. -/
def afterVersion (x : Spdm) : Bool := x.version
/-- Capabilities have been exchanged. -/
def afterCaps (x : Spdm) : Bool := x.caps
/-- Algorithms have been agreed. -/
def afterAlgs (x : Spdm) : Bool := x.algs

/-! The rows of the table. -/

/-- GET_VERSION (R495). -/
def execGetVersion (msg : MgmtMsg) (s : State) : Host.Outcome State Fault Refusal := spdmRow 0x84 anyTime spdmVersion msg s
/-- GET_CAPABILITIES (R495). -/
def execGetCapabilities (msg : MgmtMsg) (s : State) : Host.Outcome State Fault Refusal := spdmRow 0xE1 afterVersion spdmCapabilities msg s
/-- NEGOTIATE_ALGORITHMS (R496). -/
def execNegotiateAlgorithms (msg : MgmtMsg) (s : State) : Host.Outcome State Fault Refusal := spdmRow 0xE3 afterCaps spdmAlgorithms msg s
/-- GET_DIGESTS (R495). -/
def execGetDigests (msg : MgmtMsg) (s : State) : Host.Outcome State Fault Refusal := spdmRow 0x81 afterAlgs spdmDigests msg s
/-- GET_CERTIFICATE (R495). -/
def execGetCertificate (msg : MgmtMsg) (s : State) : Host.Outcome State Fault Refusal := spdmRow 0x82 afterAlgs spdmCertificate msg s
/-- CHALLENGE (R496). -/
def execChallenge (msg : MgmtMsg) (s : State) : Host.Outcome State Fault Refusal := spdmRow 0x83 afterAlgs spdmChallenge msg s
/-- GET_MEASUREMENTS (R496). -/
def execGetMeasurements (msg : MgmtMsg) (s : State) : Host.Outcome State Fault Refusal := spdmRow 0xE0 afterAlgs spdmMeasurements msg s
/-- SPDM_UNSUPPORTED (R495). -/
def execSpdmUnsupported (msg : MgmtMsg) (s : State) : Host.Outcome State Fault Refusal := spdmOther msg s

end Sys2Proof.Machine
end

