-- ==== Sys2Proof/Machine/Coh.lean ====
section
/-!
DEFINITION. Die caches and directories (R265 to R269). A home write drops the copies of its lines within the write (`hbmWrite`), so
INV is under way here only for entries that a full directory set gives up.
-/

namespace Sys2Proof.Machine

/-- May die `d` hold the line of an address (R41)? -/
def cacheable (s : State) (d a : Nat) : Bool :=
  decide (d < 4) && hbmOk s a 1 && !(placeGet s (a / 2 ^ 30)).nc && stackDie s (stackOf s a) != d
/-- The entry of a line in a directory. -/
def dirFind (l : List (Nat × BitVec 4)) (n : Nat) : Option (BitVec 4) := (l.find? (fun e => e.1 == n)).map (fun e => e.2)
/-- Sets the HOLDERS bit of a line for die `d`; its entry is then the most recently filled. -/
def dirAdd (l : List (Nat × BitVec 4)) (n d : Nat) : List (Nat × BitVec 4) :=
  l.filter (fun e => e.1 != n) ++ [(n, putBit ((dirFind l n).getD 0) d true)]
/-- Clears the HOLDERS bit of a line for die `d`; an entry with no holder goes. -/
def dirDrop (l : List (Nat × BitVec 4)) (n d : Nat) : List (Nat × BitVec 4) :=
  (l.map (fun e => if e.1 = n then (n, putBit e.2 d false) else e)).filter (fun e => e.2 != 0)
/-- Changes the coherence state. -/
def cohMod (s : State) (f : Coh → Coh) : State := { s with coh := f s.coh }
/-- The INV_ACKs that stack `j` awaits. -/
def acksOf (s : State) (j : Nat) : List (Nat × Nat) := tblGet (fun _ => []) s.coh.acks j
/-- The dies whose INV_STACK acknowledgement stack `j` awaits. -/
def stackInvOf (s : State) (j : Nat) : BitVec 4 := tblGet (fun _ => 0) s.coh.stackInv j
/-- The FILLs that stack `j` holds. -/
def heldOf (s : State) (j : Nat) : List HeldFill := tblGet (fun _ => []) s.coh.held j
/-- Holds a FILL. -/
def holdFill (s : State) (j d a : Nat) : State :=
  cohMod s (fun c => { c with held := tblMod (fun _ => []) c.held j (fun l => l ++ [⟨d, a⟩]) })

/-- The lines of the sector of an address that need a new entry, and have no room for it in their set, which takes 24. -/
def fullSets (s : State) (j a : Nat) : List Nat :=
  let l := dirGet s j
  let need (n : Nat) : Bool := (dirFind l n).isNone
  let used (n : Nat) : Nat := (l.filter (fun e => dirSetOf e.1 == dirSetOf n)).length
  let x := a / 256 * 2
  (if need x && decide (24 ≤ used x) then [x] else [])
    ++ (if need (x + 1) && decide (24 ≤ used (x + 1) + b2n (need x && dirSetOf x == dirSetOf (x + 1))) then [x + 1] else [])
/-- The home sends INV for the least recently filled entry of the set of a line, unless one of the set is already awaited. -/
def backInvalidate (j d : Nat) (s : State) (n : Nat) : State :=
  if (acksOf s j).any (fun x => dirSetOf x.1 == dirSetOf n) then s
  else
    match (dirGet s j).find? (fun e => dirSetOf e.1 == dirSetOf n) with
    | none => s
    | some e =>
      let ds := setBits 4 e.2.toNat
      cacheCount (cohMod s (fun c =>
        { c with invs := c.invs ++ ds.map (fun k => (k, e.1)),
                 acks := tblMod (fun _ => []) c.acks j (fun l => l ++ ds.map (fun k => (e.1, k))) })) d 4 1
/-- A home serves a FILL: its lines get the die's HOLDERS bit and FILL_DATA leaves; or it has to be held. One that finds an uncorrectable
word or a lost stack installs nothing, and the read that missed fails when it returns (R272). -/
def serveFill (j : Nat) (s : State) (d a : Nat) : State :=
  if stackInvOf s j ≠ 0 then holdFill s j d a
  else if readFails s (a / 256 * 256) 256 then
    let s := noteUes s (a / 256 * 256) 256
    if (badIn s (a / 256 * 256) 256).isEmpty || s.coh.failed.contains (d, a / 256) then s
    else cohMod s (fun c => { c with failed := c.failed ++ [(d, a / 256)] })
  else
    let full := fullSets s j a
    if !full.isEmpty then holdFill (each full s (backInvalidate j d)) j d a
    else
      let s := dirPut s j (dirAdd (dirAdd (dirGet s j) (a / 256 * 2) d) (a / 256 * 2 + 1) d)
      cohMod s (fun c => { c with sent := c.sent ++ [(d, a / 256)] })
/-- The held FILLs of a stack are tried again in their order. -/
def retryHeld (s : State) (j : Nat) : State :=
  let l := heldOf s j
  let s := cohMod s (fun c => { c with held := tblSet (fun _ => []) c.held j [] })
  each l s (fun s h => serveFill j s h.die h.addr)

/-- A line of the sector that the die cache holds was found uncorrectable: it is dropped and evicted before it is refetched (R269). -/
def errDrop (j d : Nat) (s : State) (n : Nat) : State :=
  if (cacheGet s d).contains n then
    cacheCount (cachePut (dirPut s j (dirDrop (dirGet s j) n d)) d ((cacheGet s d).filter (fun x => x != n))) d 5 1
  else s
/-- FILL for a sector: `bad` are the lines of it that the die cache found uncorrectable; `dirErr` says that the home found an
uncorrectable directory entry, for which it holds every FILL and write and sends INV_STACK (R269). -/
def fill (d addr : Nat) (dirErr : Bool) (bad : List Nat) (s : State) : State :=
  if !cacheable s d addr then s
  else
    let j := stackOf s addr
    let s := each (bad.filter (fun n => n / 2 == addr / 256)) s (errDrop j d)
    let s := cacheCount s d 2 1
    if dirErr && stackInvOf s j == 0 then
      holdFill (cohMod s (fun c => { c with stackInv := tblSet (fun _ => 0) c.stackInv j (putBit 0xF (stackDie s j) false) })) j d addr
    else serveFill j s d addr

/-- Room for one line in its set of a die cache: of 16 lines the least recently used gives way. -/
def install (d : Nat) (s : State) (n : Nat) : State :=
  let l := (cacheGet s d).filter (fun x => x != n)
  let same := l.filter (fun x => lineSet x == lineSet n)
  cachePut s d ((if same.length < 16 then l else l.filter (fun x => some x != same.head?)) ++ [n])
/-- FILL_DATA: both lines are installed; one whose entry has gone since, because it was written, is then dropped (R267). -/
def fillData (d addr : Nat) (s : State) : State :=
  let k := addr / 256
  if !s.coh.sent.contains (d, k) then s
  else
    let j := stackOf s addr
    let s := cohMod s (fun c => { c with sent := c.sent.erase (d, k) })
    each [2 * k, 2 * k + 1] s (fun s n =>
      let s := install d s n
      if ((dirFind (dirGet s j) n).getD 0).getLsbD d then s else dropCopies (fun x => x == n) s d)
/-- EVICT: the bit of a die that no longer holds the line is cleared. -/
def evict (d addr : Nat) (s : State) : State :=
  let n := addr / 128
  let j := stackOf s addr
  if (cacheGet s d).contains n ∨ s.coh.sent.contains (d, addr / 256) = true then s else retryHeld (dirPut s j (dirDrop (dirGet s j) n d)) j
/-- INV reaches a die cache, which drops the line. -/
def invLine (d addr : Nat) (s : State) : State :=
  let n := addr / 128
  if !s.coh.invs.contains (d, n) || s.coh.sent.contains (d, addr / 256) then s
  else
    let s := cohMod s (fun c => { c with invs := c.invs.erase (d, n) })
    cacheCount (cachePut s d ((cacheGet s d).filter (fun x => x != n))) d 3 1
/-- INV_ACK reaches the home. -/
def invAck (d addr : Nat) (s : State) : State :=
  let n := addr / 128
  let j := stackOf s addr
  if (acksOf s j).contains (n, d) && !s.coh.invs.contains (d, n) then
    let s := cohMod s (fun c => { c with acks := tblMod (fun _ => []) c.acks j (fun l => l.erase (n, d)) })
    retryHeld (dirPut s j (dirDrop (dirGet s j) n d)) j
  else s
/-- INV_STACK reaches die `d`: it drops every line of stack `j`; with the last acknowledgement the directory is cleared
and DIR_ERR set (R269, R282). -/
def invStack (d j : Nat) (s : State) : State :=
  if !(stackInvOf s j).getLsbD d then s
  else
    let mine (n : Nat) : Bool := stackOf s (128 * n) == j
    let s := cachePut s d ((cacheGet s d).filter (fun n => !mine n))
    let s := cohMod s (fun c =>
      { c with stackInv := tblMod (fun _ => 0) c.stackInv j (fun m => putBit m d false),
               sent := c.sent.filter (fun x => !(x.1 == d && mine (2 * x.2))), invs := c.invs.filter (fun x => !(x.1 == d && mine x.2)) })
    if stackInvOf s j ≠ 0 then s
    else retryHeld (event (cohMod (dirPut s j []) (fun c => { c with acks := tblSet (fun _ => []) c.acks j [] })) .mem 4 j) j

/-- FILL (R267). -/
def execFill (d addr : Nat) (x : FillCheck) (s : State) : Host.Outcome State Fault Refusal := run s (fill d addr x.dirErr x.bad)
/-- FILL_DATA (R266). -/
def execFillData (d addr : Nat) (s : State) : Host.Outcome State Fault Refusal := run s (fillData d addr)
/-- EVICT (R266). -/
def execEvict (d addr : Nat) (s : State) : Host.Outcome State Fault Refusal := run s (evict d addr)
/-- INV (R268). -/
def execInv (d addr : Nat) (s : State) : Host.Outcome State Fault Refusal := run s (invLine d addr)
/-- INV_ACK (R267). -/
def execInvAck (d addr : Nat) (s : State) : Host.Outcome State Fault Refusal := run s (invAck d addr)
/-- INV_STACK (R269). -/
def execInvStack (d j : Nat) (s : State) : Host.Outcome State Fault Refusal := onFabric (invStack d j) s

end Sys2Proof.Machine
end

