-- ==== Sys2Proof/Machine/Debug.lean ====
section
/-!
DEFINITION. The debug port (chapter 25, R497 to R503): unlocking, levels, HOLD, the control of tillers, the debug transactions.
-/

namespace Sys2Proof.Machine

/-- What a command of the debug port answers: it lives on the AUX rails (R499), and faults where the core domain is undefined (R529). -/
def dbgRow (f : State → State) (s : State) : Host.Outcome State Fault Refusal :=
  if s.board.coreUndef then .fault .coreUndefined else .next (if s.board.aux then f s else s)
/-- A transaction error: the access is refused and has no effect. -/
def dbgRefuse (s : State) : State := emit s (.dbg none)
/-- An access that needs level `n`, and the core domain out of reset. (DEDUCED, log entry 131) -/
def needs (n : Nat) (f : State → State) (s : State) : State :=
  if s.dbg.level.toNat < n ∨ s.board.held = true then dbgRefuse s else f s
/-- What follows an access that may have changed tillers or the fabric. -/
def dbgAfter (s : State) : State := settleSteps (settle (drive s))

/-! Unlocking (R498). -/

/-- Bytes of the token buffer. -/
def tokBytes (s : State) (off n : Nat) : List Byte := (List.range n).map (fun i => tblGet (fun _ => 0) s.dbg.token (off + i))
/-- The level that the token in the buffer unlocks, if it passes. -/
def tokenLevel (s : State) : Option (BitVec 2) :=
  let l := leNat (tokBytes s 4 1)
  if leNat (tokBytes s 0 4) = 0x4B544244 ∧ leNat (tokBytes s 8 16) = Config.serial.toNat ∧ leNat (tokBytes s 24 16) = s.dbg.nonce.toNat
      ∧ digest (tokBytes s 40 32) = Config.debugKeyHash ∧ Config.slhVerify (tokBytes s 40 32) (tokBytes s 0 72) (tokBytes s 72 7856) = true
      ∧ 1 ≤ l ∧ l ≤ 3 then some (BitVec.ofNat 2 l) else none
/-- A fresh nonce. -/
def newNonce (s : State) : State :=
  let v : BitVec 128 := BitVec.ofNat 128 ((Config.freeWord s.free).toNat + (Config.freeWord (s.free + 1)).toNat * 2 ^ 64)
  { s with free := s.free + 2, dbg := { s.dbg with nonce := v } }
/-- VERIFY: ignored while a check is running, refused in LOCKOUT; it consumes the nonce. (DEDUCED, log entry 130) -/
def verifyStart (s : State) : State :=
  if s.dbg.check.isSome then s
  else if s.dbg.lockout then dbgRefuse s
  else newNonce { s with dbg := { s.dbg with check := some (tokenLevel s) } }
/-- The level becomes `l`; below HALT_STEP, HOLD is cleared (R502). -/
def setLevel (l : BitVec 2) (s : State) : State := { s with dbg := { s.dbg with level := l, hold := s.dbg.hold && decide (2 ≤ l.toNat) } }
/-- A check ends: the token's level, or one more failure, the eighth in a row or later with LOCKOUT. -/
def tokenChecked (s : State) : State :=
  match s.dbg.check with
  | none => s
  | some (some l) => event (setLevel l { s with dbg := { s.dbg with check := none, fails := 0 } }) .dbg 0
  | some none =>
    let n := satInc s.dbg.fails
    event { s with dbg := { s.dbg with check := none, fails := n, lockout := decide (8 ≤ n.toNat) } } .dbg 1
/-- A word of the token buffer is written. -/
def tokenWrite (off : Nat) (v : W64) (s : State) : State :=
  if off % 8 ≠ 0 ∨ 7928 ≤ off then dbgRefuse s
  else
    let put (t : Tbl Byte) : Tbl Byte := (List.range 8).foldl (fun t i => tblSet (fun _ => 0) t (off + i) (BitVec.ofNat 8 (fld v (8 * i) 8))) t
    { s with dbg := { s.dbg with token := put s.dbg.token } }

/-! RELOCK and HOLD (R499, R502). -/

/-- RELOCK. -/
def relock (s : State) : State := setLevel 0 s
/-- HOLD_SET. -/
def holdSet (s : State) : State := if s.dbg.hold then s else event { s with dbg := { s.dbg with hold := true } } .dbg 3
/-- HOLD_CLR. -/
def holdClear (s : State) : State := { s with dbg := { s.dbg with hold := false } }

/-! Tillers (R500). -/

/-- HALT. -/
def haltEng (e : Nat) (s : State) : State :=
  if present s e ∧ (engGet s e).st = .running then engMod s e (fun g => { g with st := .halted, single := false, skip := false, cause := 0 }) else s
/-- RESUME and STEP: from a match, the instruction is dispatched without being matched again. (DEDUCED, log entry 133) -/
def runEng (one : Bool) (e : Nat) (s : State) : State :=
  if present s e ∧ (engGet s e).st = .halted then
    engSettle (engMod s e (fun g => { g with st := .running, single := one, skip := g.cause != 0, cause := 0 })) e
  else s
/-- T_STATE_e (Table 25-11). -/
def tState (s : State) (e : Nat) : Nat :=
  let g := engGet s e
  runCode g.st + g.pc.toNat * 2 ^ 3 + fld g.cause 0 2 * 2 ^ 17 + fld g.cause 2 3 * 2 ^ 19
/-- The value that T_ASEL_e selects. -/
def selGet (g : Engine) : W64 :=
  let i := fld g.asel 2 6
  match fld g.asel 0 2 with
  | 0 => if i < 32 then g.sreg i else 0
  | 1 => if i < 8 then BitVec.ofNat 64 (b2n (predGet g.preds i)) else 0
  | 2 => if i < 16 then BitVec.ofNat 64 (fld (g.hand i) (if g.asel.getLsbD 8 then 64 else 0) 64) else 0
  | _ => (g.tok i).setWidth 64
/-- The value that T_ASEL_e selects is written; a handle has its VALID evaluated (R68, R501). -/
def selPut (g : Engine) (v : W64) : Engine :=
  let i := fld g.asel 2 6
  match fld g.asel 0 2 with
  | 0 => if i < 32 then g.setSreg i v else g
  | 1 => if i < 8 then g.setPred i (v.getLsbD 0) else g
  | 2 => if i < 16 then g.setHand i (withValid (setFld (g.hand i) (if g.asel.getLsbD 8 then 64 else 0) 64 v.toNat)) else g
  | _ => g.setTok i (v.setWidth 32)
/-- The bits of a breakpoint register. -/
def bpMask : W64 := 0x8000000000003FFF
/-- The bits of a watchpoint register. -/
def wpMask : W64 := 0x800000FFFFFFFFFF
/-- The bits of T_ASEL_e. -/
def aselMask : W64 := 0x1FF
/-- A read of the registers of tiller `e` at offset `o`. -/
def tRead (s : State) (e o : Nat) : State :=
  let g := engGet s e
  let give (n : Nat) (v : W64) (s : State) : State := needs n (fun s => emit s (.dbg (some v))) s
  if o = 0x08 then give 1 (BitVec.ofNat 64 (if present s e then tState s e else 0)) s
  else if 0x10 ≤ o ∧ o < 0x50 then give 2 (tblGet (fun _ => 0) g.bps ((o - 0x10) / 8)) s
  else if 0x50 ≤ o ∧ o < 0x90 then give 2 (if o % 16 = 0 then tblGet (fun _ => 0) g.wps ((o - 0x50) / 16) else 0) s
  else if o = 0x90 then give 2 g.asel s
  else if o = 0x98 then give 2 (selGet g) s
  else give 1 0 s
/-- A write of the registers of tiller `e` at offset `o`. -/
def tWrite (e o : Nat) (v : W64) (s : State) : State :=
  if o = 0x00 then
    needs 2 (fun s =>
      let s := if v.getLsbD 0 then haltEng e s else s
      let s := if v.getLsbD 1 then runEng false e s else s
      if v.getLsbD 2 then runEng true e s else s) s
  else if 0x10 ≤ o ∧ o < 0x50 then
    needs 2 (fun s => engMod s e (fun g => { g with bps := tblSet (fun _ => 0) g.bps ((o - 0x10) / 8) (v &&& bpMask) })) s
  else if 0x50 ≤ o ∧ o < 0x90 ∧ o % 16 = 0 then
    needs 2 (fun s => engMod s e (fun g => { g with wps := tblSet (fun _ => 0) g.wps ((o - 0x50) / 16) (v &&& wpMask) })) s
  else if o = 0x90 then needs 2 (fun s => engMod s e (fun g => { g with asel := v &&& aselMask })) s
  else if o = 0x98 then
    needs 3 (fun s => if present s e ∧ (engGet s e).st = .halted then engMod s e (fun g => selPut g v) else dbgRefuse s) s
  else needs 1 (fun s => s) s

/-! Transactions (R497, R501, Table 25-10). -/

/-- DBG_CMD: one bit per write. -/
def dbgCmd (v : W64) (s : State) : State :=
  match fld v 0 4 with
  | 1 => needs 0 verifyStart s
  | 2 => needs 1 relock s
  | 4 => needs 2 holdSet s
  | 8 => needs 2 holdClear s
  | _ => dbgRefuse s
/-- The level that a read of a package address needs. -/
def readLevel (s : State) (a : Nat) : Nat :=
  match decodeAddr s a with
  | .mirror _ => 1
  | .window _ _ _ => 2
  | _ => 3
/-- A read of the debug control space. -/
def ctlRead (a : Nat) (s : State) : State :=
  if a = 0 ∨ a = 8 then emit s (.dbg (some (BitVec.ofNat 64 (fld s.dbg.nonce (8 * a) 64))))
  else if 0x10000 ≤ a ∧ a < 0x14000 then tRead s ((a - 0x10000) / 0x100) (a % 0x100)
  else needs 1 (fun s => emit s (.dbg (some 0))) s
/-- A write of the debug control space. -/
def ctlWrite (a : Nat) (v : W64) (s : State) : State :=
  if a = 0x20 then dbgCmd v s
  else if 0x2000 ≤ a ∧ a < 0x2000 + 7928 then tokenWrite (a - 0x2000) v s
  else if 0x10000 ≤ a ∧ a < 0x14000 then tWrite ((a - 0x10000) / 0x100) (a % 0x100) v s
  else needs 1 (fun s => s) s
/-- A debug read of one aligned 8-byte word. -/
def dbgGet (addr : W64) (s : State) : State :=
  if fld addr 0 3 ≠ 0 then dbgRefuse s
  else if addr.getLsbD 63 then ctlRead (fld addr 0 24) s
  else
    let a := fld addr 0 48
    needs (readLevel s a) (fun s =>
      match pkgRead s a 8 with
      | (.bytes l, s) => emit s (.dbg (some (BitVec.ofNat 64 (leNat l))))
      | (.abort, s) => dbgRefuse s) s
/-- A debug write of one aligned 8-byte word. -/
def dbgPut (addr v : W64) (hv : HostView) (s : State) : State :=
  if fld addr 0 3 ≠ 0 then dbgRefuse s
  else if addr.getLsbD 63 then ctlWrite (fld addr 0 24) v s
  else needs 3 (pkgWrite .debug hv (fld addr 0 48) (leBytes 8 v.toNat)) s
/-- SAMPLE/PRELOAD captures the boundary pins, whose value is the board's; EXTEST drives a pattern on them. Both need level FULL and
RESET_N low. (DESIGN CHOICE, log entry 134) -/
def boundaryScan (drive : Option (List Bool)) (s : State) : State :=
  if s.dbg.level ≠ 3 ∨ s.board.resetN = true then dbgRefuse s
  else
    match drive with
    | some p => { s with dbg := { s.dbg with pins := some p } }
    | none =>
      let (v, s) := drawFree s
      emit s (.dbg (some v))

/-! The rows of the table. -/

/-- VERIFY (R498). -/
def execVerify (s : State) : Host.Outcome State Fault Refusal := dbgRow (needs 0 verifyStart) s
/-- VERIFY_DONE (R498). -/
def execVerifyDone (s : State) : Host.Outcome State Fault Refusal := run s tokenChecked
/-- LOCKOUT_END (R498). -/
def execLockoutEnd (s : State) : Host.Outcome State Fault Refusal := dbgRow (fun s => { s with dbg := { s.dbg with lockout := false } }) s
/-- RELOCK (R499). -/
def execRelock (s : State) : Host.Outcome State Fault Refusal := dbgRow (needs 1 relock) s
/-- HOLD_SET (R502). -/
def execHoldSet (s : State) : Host.Outcome State Fault Refusal := dbgRow (needs 2 holdSet) s
/-- HOLD_CLR (R502). -/
def execHoldClr (s : State) : Host.Outcome State Fault Refusal := dbgRow (needs 2 holdClear) s
/-- HALT (R500). -/
def execHalt (e : Nat) (s : State) : Host.Outcome State Fault Refusal := dbgRow (needs 2 (fun s => dbgAfter (haltEng e s))) s
/-- RESUME (R500). -/
def execResume (e : Nat) (s : State) : Host.Outcome State Fault Refusal := dbgRow (needs 2 (fun s => dbgAfter (runEng false e s))) s
/-- STEP (R500). -/
def execStepOne (e : Nat) (s : State) : Host.Outcome State Fault Refusal := dbgRow (needs 2 (fun s => dbgAfter (runEng true e s))) s
/-- DBG_TOKEN_WRITE (R498). -/
def execDbgTokenWrite (off : Nat) (v : W64) (s : State) : Host.Outcome State Fault Refusal := dbgRow (tokenWrite off v) s
/-- DBG_READ (R501). -/
def execDbgRead (addr : W64) (s : State) : Host.Outcome State Fault Refusal := dbgRow (dbgGet addr) s
/-- DBG_WRITE (R501). -/
def execDbgWrite (addr v : W64) (hv : HostView) (s : State) : Host.Outcome State Fault Refusal :=
  dbgRow (fun s => dbgAfter (dbgPut addr v hv s)) s
/-- DBG_TRST_N (R465): the test access logic is reset, and EXTEST drives no more; the level stays. -/
def execDbgTrstN (s : State) : Host.Outcome State Fault Refusal := dbgRow (fun s => { s with dbg := { s.dbg with pins := none } }) s
/-- EXTEST (R499). -/
def execExtest (drive : Option (List Bool)) (s : State) : Host.Outcome State Fault Refusal := dbgRow (boundaryScan drive) s

end Sys2Proof.Machine
end

