-- ==== Sys2Proof/Machine/Scalar.lean ====
section
/-!
DEFINITION. Scalar, predicate and system instructions of the control core (R129 to R133, Table 7-4), and undefined opcodes (R125).
-/

namespace Sys2Proof.Machine

/-- A command that names a tiller: its effect, then every descriptor whose engines have all stopped completes (R351). -/
def onEngine (f : State → Nat → State) (e : Nat) (s : State) : Host.Outcome State Fault Refusal :=
  run s (fun s => settle (f s e))

/-- nop (0x00). -/
def execNop (e : Nat) (s : State) : Host.Outcome State Fault Refusal := onEngine (core1 0x00 (fun _ _ _ g => g)) e s

/-- s.li (0x01): the 64-bit immediate. -/
def execSLi (e : Nat) (s : State) : Host.Outcome State Fault Refusal := onEngine (core1 0x01 (fun _ _ w g => g.setSreg (wA w) (BitVec.ofNat 64 (fld w 64 64)))) e s

/-- s.addi (0x02). -/
def execSAddi (e : Nat) (s : State) : Host.Outcome State Fault Refusal := onEngine (alui 0x02 (fun a b => a + b)) e s

/-- s.add (0x03): wraps modulo 2^64 (R130). -/
def execSAdd (e : Nat) (s : State) : Host.Outcome State Fault Refusal := onEngine (alu 0x03 (fun a b => a + b)) e s

/-- s.sub (0x04). -/
def execSSub (e : Nat) (s : State) : Host.Outcome State Fault Refusal := onEngine (alu 0x04 (fun a b => a - b)) e s

/-- s.mul (0x05): the low 64 bits. -/
def execSMul (e : Nat) (s : State) : Host.Outcome State Fault Refusal := onEngine (alu 0x05 (fun a b => a * b)) e s

/-- s.and (0x06). -/
def execSAnd (e : Nat) (s : State) : Host.Outcome State Fault Refusal := onEngine (alu 0x06 (fun a b => a &&& b)) e s

/-- s.or (0x07). -/
def execSOr (e : Nat) (s : State) : Host.Outcome State Fault Refusal := onEngine (alu 0x07 (fun a b => a ||| b)) e s

/-- s.xor (0x08). -/
def execSXor (e : Nat) (s : State) : Host.Outcome State Fault Refusal := onEngine (alu 0x08 (fun a b => a ^^^ b)) e s

/-- s.shl (0x09): shift by s[b][5:0]. -/
def execSShl (e : Nat) (s : State) : Host.Outcome State Fault Refusal := onEngine (alu 0x09 (fun a b => a <<< fld b 0 6)) e s

/-- s.shr (0x0A): logical. -/
def execSShr (e : Nat) (s : State) : Host.Outcome State Fault Refusal := onEngine (alu 0x0A (fun a b => a >>> fld b 0 6)) e s

/-- s.sra (0x0B): arithmetic. -/
def execSSra (e : Nat) (s : State) : Host.Outcome State Fault Refusal := onEngine (alu 0x0B (fun a b => a.sshiftRight (fld b 0 6))) e s

/-- s.min (0x0C): signed. -/
def execSMin (e : Nat) (s : State) : Host.Outcome State Fault Refusal := onEngine (alu 0x0C (fun a b => if b.slt a then b else a)) e s

/-- s.minu (0x0D): unsigned. -/
def execSMinu (e : Nat) (s : State) : Host.Outcome State Fault Refusal := onEngine (alu 0x0D (fun a b => if b.ult a then b else a)) e s

/-- s.max (0x0E): signed. -/
def execSMax (e : Nat) (s : State) : Host.Outcome State Fault Refusal := onEngine (alu 0x0E (fun a b => if a.slt b then b else a)) e s

/-- s.maxu (0x0F): unsigned. -/
def execSMaxu (e : Nat) (s : State) : Host.Outcome State Fault Refusal := onEngine (alu 0x0F (fun a b => if a.ult b then b else a)) e s

/-- s.andi (0x10). -/
def execSAndi (e : Nat) (s : State) : Host.Outcome State Fault Refusal := onEngine (alui 0x10 (fun a b => a &&& b)) e s

/-- s.shli (0x11): shift by IMM[5:0]. -/
def execSShli (e : Nat) (s : State) : Host.Outcome State Fault Refusal := onEngine (alui 0x11 (fun a b => a <<< fld b 0 6)) e s

/-- s.shri (0x12): logical shift by IMM[5:0]. -/
def execSShri (e : Nat) (s : State) : Host.Outcome State Fault Refusal := onEngine (alui 0x12 (fun a b => a >>> fld b 0 6)) e s

/-- s.ld (0x13, R131). -/
def execSLd (x : TileRead) (s : State) : Host.Outcome State Fault Refusal :=
  onEngine (dispatch 0x13 noMore (ownFeet false) (doLd x.err)) x.e s

/-- s.st (0x14, R131). -/
def execSSt (e : Nat) (s : State) : Host.Outcome State Fault Refusal := onEngine (dispatch 0x14 noMore (ownFeet true) doSt) e s

/-- br (0x20): the guard is the condition (R126). -/
def execBr (e : Nat) (s : State) : Host.Outcome State Fault Refusal := onEngine (branch 0x20 (fun _ _ => true) (fun g _ _ => g) relTarget) e s

/-- br.link (0x21): s[d] takes PC + 1 when the branch is taken. -/
def execBrLink (e : Nat) (s : State) : Host.Outcome State Fault Refusal := onEngine (branch 0x21 (fun _ _ => true)
    (fun g w t => if t then g.setSreg (wA w) (BitVec.ofNat 64 (g.pc.toNat + 1)) else g) relTarget) e s

/-- br.reg (0x22): bits [63:14] of the register must be 0 (R132). -/
def execBrReg (e : Nat) (s : State) : Host.Outcome State Fault Refusal := onEngine (branch 0x22 (fun _ _ => true) (fun g _ _ => g)
    (fun g w => if (g.sreg (wB w)).toNat < 2 ^ 14 then some (g.sreg (wB w)).toNat else none)) e s

/-- br.dec (0x23): decrements whatever the guard, branches when it holds and the result is not zero (R130). -/
def execBrDec (e : Nat) (s : State) : Host.Outcome State Fault Refusal := onEngine (branch 0x23
    (fun g w => (g.setSreg (wB w) (g.sreg (wB w) - 1)).sreg (wB w) != 0) (fun g w _ => g.setSreg (wB w) (g.sreg (wB w) - 1)) relTarget) e s

/-- p.eq (0x24). -/
def execPEq (e : Nat) (s : State) : Host.Outcome State Fault Refusal := onEngine (compare2 0x24) e s

/-- p.ne (0x25). -/
def execPNe (e : Nat) (s : State) : Host.Outcome State Fault Refusal := onEngine (compare2 0x25) e s

/-- p.lt (0x26). -/
def execPLt (e : Nat) (s : State) : Host.Outcome State Fault Refusal := onEngine (compare2 0x26) e s

/-- p.ltu (0x27). -/
def execPLtu (e : Nat) (s : State) : Host.Outcome State Fault Refusal := onEngine (compare2 0x27) e s

/-- p.ge (0x28). -/
def execPGe (e : Nat) (s : State) : Host.Outcome State Fault Refusal := onEngine (compare2 0x28) e s

/-- p.geu (0x29). -/
def execPGeu (e : Nat) (s : State) : Host.Outcome State Fault Refusal := onEngine (compare2 0x29) e s

/-- p.eqi (0x2A). -/
def execPEqi (e : Nat) (s : State) : Host.Outcome State Fault Refusal := onEngine (comparei 0x2A) e s

/-- p.lti (0x2B). -/
def execPLti (e : Nat) (s : State) : Host.Outcome State Fault Refusal := onEngine (comparei 0x2B) e s

/-- p.ltui (0x2C). -/
def execPLtui (e : Nat) (s : State) : Host.Outcome State Fault Refusal := onEngine (comparei 0x2C) e s

/-- p.and (0x2D). -/
def execPAnd (e : Nat) (s : State) : Host.Outcome State Fault Refusal := onEngine (logic2 0x2D) e s

/-- p.or (0x2E). -/
def execPOr (e : Nat) (s : State) : Host.Outcome State Fault Refusal := onEngine (logic2 0x2E) e s

/-- p.xor (0x2F). -/
def execPXor (e : Nat) (s : State) : Host.Outcome State Fault Refusal := onEngine (logic2 0x2F) e s

/-- p.not (0x30). -/
def execPNot (e : Nat) (s : State) : Host.Outcome State Fault Refusal := onEngine (core1 0x30 (fun _ _ w g => g.setPred (wA w) (!predGet g.preds (wB w)))) e s

/-- s.rdctr (0x31): IMM above 20 is out of range. A counter of cycles reads as a free value (R73). -/
def execSRdctr (e : Nat) (s : State) : Host.Outcome State Fault Refusal := onEngine (dispatch 0x31 (fun w => decide (wImm w ≤ 20)) noFeet
    (fun s e w =>
      let v := ctrSeen s e (wImm w) 0
      .go (engMod (if cycleCtr (wImm w) then { s with free := s.free + 1 } else s) e
        (fun g => (g.setSreg (wA w) (v.setWidth 64)).count 1)))) e s

/-- s.beat (0x32): BEAT_NOW. -/
def execSBeat (e : Nat) (s : State) : Host.Outcome State Fault Refusal := onEngine (core1 0x32 (fun s _ w g => g.setSreg (wA w) s.beat.now)) e s

/-- s.eng (0x33): the own logical engine number. -/
def execSEng (e : Nat) (s : State) : Host.Outcome State Fault Refusal := onEngine (core1 0x33 (fun _ e w g => g.setSreg (wA w) (BitVec.ofNat 64 e))) e s

/-- s.chip (0x34): FAB_CHIP_NUM. -/
def execSChip (e : Nat) (s : State) : Host.Outcome State Fault Refusal := onEngine (core1 0x34 (fun s _ w g => g.setSreg (wA w) (s.rt.chip.setWidth 64))) e s

/-- s.rdtok (0x35): an own token counter, zero-extended. -/
def execSRdtok (e : Nat) (s : State) : Host.Outcome State Fault Refusal := onEngine (core1 0x35 (fun _ _ w g => g.setSreg (wA w) ((g.tok (wB w)).setWidth 64))) e s

/-- sy.end (0x3F): dispatch ends; the tiller stops once nothing is left (R63). (DEDUCED, log entry 27) -/
def execSyEnd (e : Nat) (s : State) : Host.Outcome State Fault Refusal := onEngine (core1 0x3F (fun _ _ _ g => { g with ending := true })) e s

/-- A word whose opcode no instruction-set chapter defines, or execution past index 16,383: ILLEGAL_ENCODING (R62, R125). A
breakpoint at the index halts the core first. -/
def undefinedOp (s : State) (e : Nat) : State :=
  let g := engGet s e
  if g.past then (if canDispatch (engPut s e { g with past := false }) e then trapAt s e 4 1 0 else s)
  else if !canDispatch s e || (opSpec (wOp g.word)).isSome then s
  else
    match (if g.skip then none else bpHit g) with
    | some k => breakAt s e false k
    | none => trapAt s e 4 1 0
/-- UNDEFINED_OPCODE. -/
def execUndefinedOpcode (e : Nat) (s : State) : Host.Outcome State Fault Refusal := onEngine undefinedOp e s

end Sys2Proof.Machine
end

