-- ==== Sys2Proof/Machine/Queue.lean ====
section
/-!
DEFINITION. Dispatch of the queued instructions: movement, fabric, matrix, vector, table, gather-sum and sheaf (R64, R70, R128).
What they do comes with their issue and completion (`Issue.lean`).
-/

namespace Sys2Proof.Machine

/-- mv.load (0x80, R136 to R138). -/
def execMvLoad (e : Nat) (s : State) : Host.Outcome State Fault Refusal := onEngine (dispatchQ 0x80 noMore planLoad .mv) e s

/-- mv.store (0x81, R136 to R138). -/
def execMvStore (e : Nat) (s : State) : Host.Outcome State Fault Refusal := onEngine (dispatchQ 0x81 noMore planStore .mv) e s

/-- mv.tload (0x82, R141). -/
def execMvTload (e : Nat) (s : State) : Host.Outcome State Fault Refusal := onEngine (dispatchQ 0x82 noMore planTload .mv) e s

/-- mv.copy (0x83, R141). -/
def execMvCopy (e : Nat) (s : State) : Host.Outcome State Fault Refusal := onEngine (dispatchQ 0x83 noMore planCopy .mv) e s

/-- mv.tcopy (0x84, R141). -/
def execMvTcopy (e : Nat) (s : State) : Host.Outcome State Fault Refusal := onEngine (dispatchQ 0x84 noMore planTcopy .mv) e s

/-- mv.gather (0x85, R140). -/
def execMvGather (e : Nat) (s : State) : Host.Outcome State Fault Refusal := onEngine (dispatchQ 0x85 noMore planGather .mv) e s

/-- mv.scatter (0x86, R140). -/
def execMvScatter (e : Nat) (s : State) : Host.Outcome State Fault Refusal := onEngine (dispatchQ 0x86 noMore planScatter .mv) e s

/-- mv.cvt (0x87, R142). -/
def execMvCvt (e : Nat) (s : State) : Host.Outcome State Fault Refusal := onEngine (dispatchQ 0x87 convMore planCvt .mv) e s

/-- fx.put (0xA0, R143). -/
def execFxPut (e : Nat) (s : State) : Host.Outcome State Fault Refusal := onEngine (dispatchQ 0xA0 statMore planPut .sf) e s

/-- fx.get (0xA1, R143). -/
def execFxGet (e : Nat) (s : State) : Host.Outcome State Fault Refusal := onEngine (dispatchQ 0xA1 statMore planGet .sf) e s

/-- fx.atom (0xA2, R143). -/
def execFxAtom (e : Nat) (s : State) : Host.Outcome State Fault Refusal := onEngine (dispatchQ 0xA2 atomMore planStat .sf) e s

/-- sy.commit (0x66, R151). -/
def execSyCommit (e : Nat) (s : State) : Host.Outcome State Fault Refusal := onEngine (dispatchQ 0x66 statMore planStat .sf) e s

/-- mm.full (0xC0, R156 to R162). -/
def execMmFull (e : Nat) (s : State) : Host.Outcome State Fault Refusal := onEngine (dispatchQ 0xC0 mmMore planMm .mm) e s

/-- mm.half (0xC1, R156 to R162). -/
def execMmHalf (e : Nat) (s : State) : Host.Outcome State Fault Refusal := onEngine (dispatchQ 0xC1 mmMore planMm .mm) e s

/-- mm.quarter (0xC2, R156 to R162). -/
def execMmQuarter (e : Nat) (s : State) : Host.Outcome State Fault Refusal := onEngine (dispatchQ 0xC2 mmMore planMm .mm) e s

/-- mm.thin (0xC3, R156 to R162). -/
def execMmThin (e : Nat) (s : State) : Host.Outcome State Fault Refusal := onEngine (dispatchQ 0xC3 mmMore planMm .mm) e s

/-- mm.full.t (0xC4, R156 to R162). -/
def execMmFullT (e : Nat) (s : State) : Host.Outcome State Fault Refusal := onEngine (dispatchQ 0xC4 mmMore planMm .mm) e s

/-- mm.op32 (0xC5, R156 to R162). -/
def execMmOp32 (e : Nat) (s : State) : Host.Outcome State Fault Refusal := onEngine (dispatchQ 0xC5 mmMore planMm .mm) e s

/-- vx.add (0xE0, R167 to R169). -/
def execVxAdd (e : Nat) (s : State) : Host.Outcome State Fault Refusal := onEngine (dispatchQ 0xE0 convMore planArith .vx) e s

/-- vx.sub (0xE1, R167 to R169). -/
def execVxSub (e : Nat) (s : State) : Host.Outcome State Fault Refusal := onEngine (dispatchQ 0xE1 convMore planArith .vx) e s

/-- vx.mul (0xE2, R167 to R169). -/
def execVxMul (e : Nat) (s : State) : Host.Outcome State Fault Refusal := onEngine (dispatchQ 0xE2 convMore planArith .vx) e s

/-- vx.fma (0xE3, R167 to R169). -/
def execVxFma (e : Nat) (s : State) : Host.Outcome State Fault Refusal := onEngine (dispatchQ 0xE3 convMore planArith .vx) e s

/-- vx.max (0xE4, R167 to R169). -/
def execVxMax (e : Nat) (s : State) : Host.Outcome State Fault Refusal := onEngine (dispatchQ 0xE4 convMore planArith .vx) e s

/-- vx.min (0xE5, R167 to R169). -/
def execVxMin (e : Nat) (s : State) : Host.Outcome State Fault Refusal := onEngine (dispatchQ 0xE5 convMore planArith .vx) e s

/-- vx.abs (0xE6, R167 to R169). -/
def execVxAbs (e : Nat) (s : State) : Host.Outcome State Fault Refusal := onEngine (dispatchQ 0xE6 convMore planArith .vx) e s

/-- vx.rcp (0xE7, R167 to R169). -/
def execVxRcp (e : Nat) (s : State) : Host.Outcome State Fault Refusal := onEngine (dispatchQ 0xE7 convMore planArith .vx) e s

/-- vx.cvt (0xE8, R167, R168). -/
def execVxCvt (e : Nat) (s : State) : Host.Outcome State Fault Refusal := onEngine (dispatchQ 0xE8 convMore planCvt .vx) e s

/-- vx.rsum (0xE9, R170). -/
def execVxRsum (e : Nat) (s : State) : Host.Outcome State Fault Refusal := onEngine (dispatchQ 0xE9 convMore planReduce .vx) e s

/-- vx.rmax (0xEA, R170). -/
def execVxRmax (e : Nat) (s : State) : Host.Outcome State Fault Refusal := onEngine (dispatchQ 0xEA convMore planReduce .vx) e s

/-- vx.nanc (0xEB, R170). -/
def execVxNanc (e : Nat) (s : State) : Host.Outcome State Fault Refusal := onEngine (dispatchQ 0xEB convMore planNanc .vx) e s

/-- vx.popc (0xEC, R170). -/
def execVxPopc (e : Nat) (s : State) : Host.Outcome State Fault Refusal := onEngine (dispatchQ 0xEC convMore planPopc .vx) e s

/-- vx.hamm (0xED, R171). -/
def execVxHamm (e : Nat) (s : State) : Host.Outcome State Fault Refusal := onEngine (dispatchQ 0xED convMore planHamm .vx) e s

/-- vx.topk (0xEE, R172). -/
def execVxTopk (e : Nat) (s : State) : Host.Outcome State Fault Refusal := onEngine (dispatchQ 0xEE convMore planTopk .vx) e s

/-- vx.samp (0xEF, R173). -/
def execVxSamp (e : Nat) (s : State) : Host.Outcome State Fault Refusal := onEngine (dispatchQ 0xEF convMore planSamp .vx) e s

/-- vx.opt (0xF0, R174). -/
def execVxOpt (e : Nat) (s : State) : Host.Outcome State Fault Refusal := onEngine (dispatchQ 0xF0 optMore planOpt .vx) e s

/-- tb.load (0xF1, R175). -/
def execTbLoad (e : Nat) (s : State) : Host.Outcome State Fault Refusal := onEngine (dispatchQ 0xF1 noMore planTbLoad .vx) e s

/-- tb.fwd (0xF2, R176). -/
def execTbFwd (e : Nat) (s : State) : Host.Outcome State Fault Refusal := onEngine (dispatchQ 0xF2 convMore planTable .vx) e s

/-- tb.der (0xF3, R176). -/
def execTbDer (e : Nat) (s : State) : Host.Outcome State Fault Refusal := onEngine (dispatchQ 0xF3 derMore planTable .vx) e s

/-- gg.sum (0xF4, R177). -/
def execGgSum (e : Nat) (s : State) : Host.Outcome State Fault Refusal := onEngine (dispatchQ 0xF4 convMore planGg .vx) e s

/-- sh.grain (0xF8, R178). -/
def execShGrain (e : Nat) (s : State) : Host.Outcome State Fault Refusal := onEngine (dispatchQ 0xF8 grainMore planGrain .sf) e s

end Sys2Proof.Machine
end

