-- ==== Sys2Proof/Machine/Sync.lean ====
section
/-!
DEFINITION. Handle, synchronisation and hint instructions of the control core (R134, R135, R146 to R152).
-/

namespace Sys2Proof.Machine

/-- hd.base: a value is drawn only where the spec states none. -/
def doHdBase (s : State) (e : Nat) (w : IWord) : Ctl :=
  let g := engGet s e
  let d := g.hand (wB w)
  let b : Int := fld d 0 19 + (g.sreg (wC w)).toInt
  let (v, s') := if 0 ≤ b ∧ b < 2 ^ 19 then (0, s) else drawFree s
  .go (engPut s' e ((g.setHand (wA w) (hdBaseVal d (g.sreg (wC w)) v)).count 1))
/-- hd.base (0x41, R135). -/
def execHdBase (e : Nat) (s : State) : Host.Outcome State Fault Refusal := onEngine (dispatch 0x41 noMore noFeet doHdBase) e s

/-- hd.shape: a value is drawn only where the spec states none. -/
def doHdShape (s : State) (e : Nat) (w : IWord) : Ctl :=
  let g := engGet s e
  let r := g.sreg (wC w)
  let c := g.sreg (wD w)
  let (v, s') := if shapeOk r && shapeOk c then (0, s) else drawFree s
  .go (engPut s' e ((g.setHand (wA w) (hdShapeVal (g.hand (wB w)) r c v)).count 1))
/-- hd.shape (0x42, R135). -/
def execHdShape (e : Nat) (s : State) : Host.Outcome State Fault Refusal := onEngine (dispatch 0x42 noMore noFeet doHdShape) e s

/-- hd.set (0x40). -/
def execHdSet (e : Nat) (s : State) : Host.Outcome State Fault Refusal := onEngine (core1 0x40 (fun _ _ w g => g.setHand (wA w) (hdSetVal (g.sreg (wB w)) (g.sreg (wC w))))) e s

/-- hd.rd (0x43): half of a descriptor by IMM[0]. -/
def execHdRd (e : Nat) (s : State) : Host.Outcome State Fault Refusal := onEngine (core1 0x43 (fun _ _ w g =>
    g.setSreg (wA w) (BitVec.ofNat 64 (fld (g.hand (wB w)) (if wImm w = 0 then 0 else 64) 64)))) e s

/-- hd.clr (0x44). -/
def execHdClr (e : Nat) (s : State) : Host.Outcome State Fault Refusal := onEngine (core1 0x44 (fun _ _ w g => g.setHand (wA w) 0)) e s

/-- sy.inc (0x60, R146). -/
def execSyInc (e : Nat) (s : State) : Host.Outcome State Fault Refusal := onEngine (dispatch 0x60 noMore noFeet doSyInc) e s

/-- sy.tset (0x61, R147). -/
def execSyTset (e : Nat) (s : State) : Host.Outcome State Fault Refusal := onEngine (dispatch 0x61 noMore noFeet doTset) e s

/-- sy.twait (0x62, R148). -/
def execSyTwait (e : Nat) (s : State) : Host.Outcome State Fault Refusal := onEngine (dispatch 0x62 noMore noFeet doTwait) e s

/-- sy.wait (0x63, R148). -/
def execSyWait (e : Nat) (s : State) : Host.Outcome State Fault Refusal := onEngine (dispatch 0x63 noMore noFeet doWait) e s

/-- sy.bar (0x64, R149). -/
def execSyBar (e : Nat) (s : State) : Host.Outcome State Fault Refusal := onEngine (dispatch 0x64 noMore noFeet doBar) e s

/-- sy.drain (0x65, R150): a mask of 0 is refused. -/
def execSyDrain (e : Nat) (s : State) : Host.Outcome State Fault Refusal := onEngine (dispatch 0x65 (fun w => wImm w != 0) noFeet doDrain) e s

/-- hn.phase (0x67, R152). -/
def execHnPhase (e : Nat) (s : State) : Host.Outcome State Fault Refusal := onEngine (dispatch 0x67 noMore noFeet doPhase) e s

/-- SY_INC_APPLY: the oldest deferred increment takes effect (R146). -/
def execSyIncApply (e : Nat) (s : State) : Host.Outcome State Fault Refusal := onEngine (applyInc) e s

/-- BEAT_WAIT_RELEASE: a tiller that waits in sy.wait continues once its beat has come (R148). -/
def execBeatWaitRelease (e : Nat) (s : State) : Host.Outcome State Fault Refusal := onEngine (dispatch 0x63 noMore noFeet doWait) e s

end Sys2Proof.Machine
end

