-- ==== Sys2Proof/Machine/Dispatch.lean ====
section
/-! DEFINITION. The meaning of every command: one arm, one meaning. -/

namespace Sys2Proof.Machine

def exec (i : Instr) (s : State) : Host.Outcome State Fault Refusal :=
  match i with
  | .auxPowerUp => Sys2Proof.Machine.execAuxPowerUp s
  | .auxPowerLoss => Sys2Proof.Machine.execAuxPowerLoss s
  | .holdupOkRise => Sys2Proof.Machine.execHoldupOkRise s
  | .holdupLow => Sys2Proof.Machine.execHoldupLow s
  | .pwrGoodRise g => Sys2Proof.Machine.execPwrGoodRise g s
  | .pwrGoodFall g => Sys2Proof.Machine.execPwrGoodFall g s
  | .resetNAssert => Sys2Proof.Machine.execResetNAssert s
  | .resetNRelease romOk fref temps => Sys2Proof.Machine.execResetNRelease romOk fref temps s
  | .frefLockTimeout => Sys2Proof.Machine.execFrefLockTimeout s
  | .lowTempRecheck temps => Sys2Proof.Machine.execLowTempRecheck temps s
  | .bootGo v => Sys2Proof.Machine.execBootGo v s
  | .bootVerifyDone => Sys2Proof.Machine.execBootVerifyDone s
  | .bringupStepEnd r => Sys2Proof.Machine.execBringupStepEnd r s
  | .hifSetupLock v => Sys2Proof.Machine.execHifSetupLock v s
  | .start q hv => Sys2Proof.Machine.execStart q hv s
  | .stop q => Sys2Proof.Machine.execStop q s
  | .doorbellPoll => Sys2Proof.Machine.execDoorbellPoll s
  | .summaryReadReturn hv => Sys2Proof.Machine.execSummaryReadReturn hv s
  | .groupReadReturn g hv => Sys2Proof.Machine.execGroupReadReturn g hv s
  | .descFetchReturn q hv => Sys2Proof.Machine.execDescFetchReturn q hv s
  | .hostReadReturn k hv => Sys2Proof.Machine.execHostReadReturn k hv s
  | .cqHeadRead n hv => Sys2Proof.Machine.execCqHeadRead n hv s
  | .frHeadRead hv => Sys2Proof.Machine.execFrHeadRead hv s
  | .coalTimer n => Sys2Proof.Machine.execCoalTimer n s
  | .cqCtrlWrite n v => Sys2Proof.Machine.execCqCtrlWrite n v s
  | .frCtrlWrite v => Sys2Proof.Machine.execFrCtrlWrite v s
  | .hostLinkDown => Sys2Proof.Machine.execHostLinkDown s
  | .hostLinkTrain gen width flit => Sys2Proof.Machine.execHostLinkTrain gen width flit s
  | .bar2Read off req => Sys2Proof.Machine.execBar2Read off req s
  | .bar2Write off bytes hv => Sys2Proof.Machine.execBar2Write off bytes hv s
  | .eventClear blk mask arriving => Sys2Proof.Machine.execEventClear blk mask arriving s
  | .regWriteOther off bytes enabled hv => Sys2Proof.Machine.execRegWriteOther off bytes enabled hv s
  | .nopDesc q => Sys2Proof.Machine.execNopDesc q s
  | .copy q => Sys2Proof.Machine.execCopy q s
  | .engineLoad q => Sys2Proof.Machine.execEngineLoad q s
  | .engineReset q => Sys2Proof.Machine.execEngineReset q s
  | .engineStart q => Sys2Proof.Machine.execEngineStart q s
  | .phaseHint q => Sys2Proof.Machine.execPhaseHint q s
  | .seqBind q => Sys2Proof.Machine.execSeqBind q s
  | .seqUnbind q => Sys2Proof.Machine.execSeqUnbind q s
  | .seqPatch q => Sys2Proof.Machine.execSeqPatch q s
  | .decodeStep q => Sys2Proof.Machine.execDecodeStep q s
  | .decodeEnginesDone k => Sys2Proof.Machine.execDecodeEnginesDone k s
  | .jrnlAckTimeout k => Sys2Proof.Machine.execJrnlAckTimeout k s
  | .kvPool q => Sys2Proof.Machine.execKvPool q s
  | .jrnlFlush q => Sys2Proof.Machine.execJrnlFlush q s
  | .cktSetup q => Sys2Proof.Machine.execCktSetup q s
  | .cktTeardown q => Sys2Proof.Machine.execCktTeardown q s
  | .mcWrite q => Sys2Proof.Machine.execMcWrite q s
  | .rmtWrite q => Sys2Proof.Machine.execRmtWrite q s
  | .rmtRead q => Sys2Proof.Machine.execRmtRead q s
  | .rmtAtomic q => Sys2Proof.Machine.execRmtAtomic q s
  | .calWrite q => Sys2Proof.Machine.execCalWrite q s
  | .calWriteDone flashOk => Sys2Proof.Machine.execCalWriteDone flashOk s
  | .beatBoundary clocks => Sys2Proof.Machine.execBeatBoundary clocks s
  | .beatMasterSet v => Sys2Proof.Machine.execBeatMasterSet v s
  | .beatMasterClear v => Sys2Proof.Machine.execBeatMasterClear v s
  | .beatResync v => Sys2Proof.Machine.execBeatResync v s
  | .acquireEnd phase => Sys2Proof.Machine.execAcquireEnd phase s
  | .upstreamTimeout => Sys2Proof.Machine.execUpstreamTimeout s
  | .holdoverEnter => Sys2Proof.Machine.execHoldoverEnter s
  | .circuitRefuse => Sys2Proof.Machine.execCircuitRefuse s
  | .circuitRelease => Sys2Proof.Machine.execCircuitRelease s
  | .ptpSyncRx x => Sys2Proof.Machine.execPtpSyncRx x s
  | .ptpLoss => Sys2Proof.Machine.execPtpLoss s
  | .descNotBefore q => Sys2Proof.Machine.execDescNotBefore q s
  | .beatWaitRelease e => Sys2Proof.Machine.execBeatWaitRelease e s
  | .circuitActivation n => Sys2Proof.Machine.execCircuitActivation n s
  | .routeBankSwitch => Sys2Proof.Machine.execRouteBankSwitch s
  | .sheafCalWindow d => Sys2Proof.Machine.execSheafCalWindow d s
  | .phaseHintStart k => Sys2Proof.Machine.execPhaseHintStart k s
  | .phaseHintEnd k means => Sys2Proof.Machine.execPhaseHintEnd k means s
  | .preRampStart k => Sys2Proof.Machine.execPreRampStart k s
  | .leaseExpiry => Sys2Proof.Machine.execLeaseExpiry s
  | .reclaimDeadline => Sys2Proof.Machine.execReclaimDeadline s
  | .telemetryWindow => Sys2Proof.Machine.execTelemetryWindow s
  | .nop e => Sys2Proof.Machine.execNop e s
  | .sLi e => Sys2Proof.Machine.execSLi e s
  | .sAddi e => Sys2Proof.Machine.execSAddi e s
  | .sAdd e => Sys2Proof.Machine.execSAdd e s
  | .sSub e => Sys2Proof.Machine.execSSub e s
  | .sMul e => Sys2Proof.Machine.execSMul e s
  | .sAnd e => Sys2Proof.Machine.execSAnd e s
  | .sOr e => Sys2Proof.Machine.execSOr e s
  | .sXor e => Sys2Proof.Machine.execSXor e s
  | .sShl e => Sys2Proof.Machine.execSShl e s
  | .sShr e => Sys2Proof.Machine.execSShr e s
  | .sSra e => Sys2Proof.Machine.execSSra e s
  | .sMin e => Sys2Proof.Machine.execSMin e s
  | .sMinu e => Sys2Proof.Machine.execSMinu e s
  | .sMax e => Sys2Proof.Machine.execSMax e s
  | .sMaxu e => Sys2Proof.Machine.execSMaxu e s
  | .sAndi e => Sys2Proof.Machine.execSAndi e s
  | .sShli e => Sys2Proof.Machine.execSShli e s
  | .sShri e => Sys2Proof.Machine.execSShri e s
  | .sLd x => Sys2Proof.Machine.execSLd x s
  | .sSt e => Sys2Proof.Machine.execSSt e s
  | .br e => Sys2Proof.Machine.execBr e s
  | .brLink e => Sys2Proof.Machine.execBrLink e s
  | .brReg e => Sys2Proof.Machine.execBrReg e s
  | .brDec e => Sys2Proof.Machine.execBrDec e s
  | .pEq e => Sys2Proof.Machine.execPEq e s
  | .pNe e => Sys2Proof.Machine.execPNe e s
  | .pLt e => Sys2Proof.Machine.execPLt e s
  | .pLtu e => Sys2Proof.Machine.execPLtu e s
  | .pGe e => Sys2Proof.Machine.execPGe e s
  | .pGeu e => Sys2Proof.Machine.execPGeu e s
  | .pEqi e => Sys2Proof.Machine.execPEqi e s
  | .pLti e => Sys2Proof.Machine.execPLti e s
  | .pLtui e => Sys2Proof.Machine.execPLtui e s
  | .pAnd e => Sys2Proof.Machine.execPAnd e s
  | .pOr e => Sys2Proof.Machine.execPOr e s
  | .pXor e => Sys2Proof.Machine.execPXor e s
  | .pNot e => Sys2Proof.Machine.execPNot e s
  | .sRdctr e => Sys2Proof.Machine.execSRdctr e s
  | .sBeat e => Sys2Proof.Machine.execSBeat e s
  | .sEng e => Sys2Proof.Machine.execSEng e s
  | .sChip e => Sys2Proof.Machine.execSChip e s
  | .sRdtok e => Sys2Proof.Machine.execSRdtok e s
  | .syEnd e => Sys2Proof.Machine.execSyEnd e s
  | .hdSet e => Sys2Proof.Machine.execHdSet e s
  | .hdBase e => Sys2Proof.Machine.execHdBase e s
  | .hdShape e => Sys2Proof.Machine.execHdShape e s
  | .hdRd e => Sys2Proof.Machine.execHdRd e s
  | .hdClr e => Sys2Proof.Machine.execHdClr e s
  | .mvLoad e => Sys2Proof.Machine.execMvLoad e s
  | .mvStore e => Sys2Proof.Machine.execMvStore e s
  | .mvTload e => Sys2Proof.Machine.execMvTload e s
  | .mvCopy e => Sys2Proof.Machine.execMvCopy e s
  | .mvTcopy e => Sys2Proof.Machine.execMvTcopy e s
  | .mvGather e => Sys2Proof.Machine.execMvGather e s
  | .mvScatter e => Sys2Proof.Machine.execMvScatter e s
  | .mvCvt e => Sys2Proof.Machine.execMvCvt e s
  | .fxPut e => Sys2Proof.Machine.execFxPut e s
  | .fxGet e => Sys2Proof.Machine.execFxGet e s
  | .fxAtom e => Sys2Proof.Machine.execFxAtom e s
  | .syInc e => Sys2Proof.Machine.execSyInc e s
  | .syIncApply e => Sys2Proof.Machine.execSyIncApply e s
  | .syTset e => Sys2Proof.Machine.execSyTset e s
  | .syTwait e => Sys2Proof.Machine.execSyTwait e s
  | .syWait e => Sys2Proof.Machine.execSyWait e s
  | .syBar e => Sys2Proof.Machine.execSyBar e s
  | .syDrain e => Sys2Proof.Machine.execSyDrain e s
  | .syCommit e => Sys2Proof.Machine.execSyCommit e s
  | .hnPhase e => Sys2Proof.Machine.execHnPhase e s
  | .mmFull e => Sys2Proof.Machine.execMmFull e s
  | .mmHalf e => Sys2Proof.Machine.execMmHalf e s
  | .mmQuarter e => Sys2Proof.Machine.execMmQuarter e s
  | .mmThin e => Sys2Proof.Machine.execMmThin e s
  | .mmFullT e => Sys2Proof.Machine.execMmFullT e s
  | .mmOp32 e => Sys2Proof.Machine.execMmOp32 e s
  | .vxAdd e => Sys2Proof.Machine.execVxAdd e s
  | .vxSub e => Sys2Proof.Machine.execVxSub e s
  | .vxMul e => Sys2Proof.Machine.execVxMul e s
  | .vxFma e => Sys2Proof.Machine.execVxFma e s
  | .vxMax e => Sys2Proof.Machine.execVxMax e s
  | .vxMin e => Sys2Proof.Machine.execVxMin e s
  | .vxAbs e => Sys2Proof.Machine.execVxAbs e s
  | .vxRcp e => Sys2Proof.Machine.execVxRcp e s
  | .vxCvt e => Sys2Proof.Machine.execVxCvt e s
  | .vxRsum e => Sys2Proof.Machine.execVxRsum e s
  | .vxRmax e => Sys2Proof.Machine.execVxRmax e s
  | .vxNanc e => Sys2Proof.Machine.execVxNanc e s
  | .vxPopc e => Sys2Proof.Machine.execVxPopc e s
  | .vxHamm e => Sys2Proof.Machine.execVxHamm e s
  | .vxTopk e => Sys2Proof.Machine.execVxTopk e s
  | .vxSamp e => Sys2Proof.Machine.execVxSamp e s
  | .vxOpt e => Sys2Proof.Machine.execVxOpt e s
  | .tbLoad e => Sys2Proof.Machine.execTbLoad e s
  | .tbFwd e => Sys2Proof.Machine.execTbFwd e s
  | .tbDer e => Sys2Proof.Machine.execTbDer e s
  | .ggSum e => Sys2Proof.Machine.execGgSum e s
  | .shGrain e => Sys2Proof.Machine.execShGrain e s
  | .instrIssue e x => Sys2Proof.Machine.execInstrIssue e x s
  | .instrComplete e k err => Sys2Proof.Machine.execInstrComplete e k err s
  | .grainGroupDone e k => Sys2Proof.Machine.execGrainGroupDone e k s
  | .arbDecision kind inst ready => Sys2Proof.Machine.execArbDecision kind inst ready s
  | .arbWeightWrite kind g v => Sys2Proof.Machine.execArbWeightWrite kind g v s
  | .hbmReadReturn e k corrected failed => Sys2Proof.Machine.execHbmReadReturn e k corrected failed s
  | .hbmWriteAck e k => Sys2Proof.Machine.execHbmWriteAck e k s
  | .fill d addr x => Sys2Proof.Machine.execFill d addr x s
  | .fillData d addr => Sys2Proof.Machine.execFillData d addr s
  | .evict d addr => Sys2Proof.Machine.execEvict d addr s
  | .inv d addr => Sys2Proof.Machine.execInv d addr s
  | .invAck d addr => Sys2Proof.Machine.execInvAck d addr s
  | .invStack d j => Sys2Proof.Machine.execInvStack d j s
  | .d2dBlockRx n crcOk => Sys2Proof.Machine.execD2dBlockRx n crcOk s
  | .d2dRetrainEnd n spares => Sys2Proof.Machine.execD2dRetrainEnd n spares s
  | .patrolScrub addr corrected failed => Sys2Proof.Machine.execPatrolScrub addr corrected failed s
  | .memPlaceWrite n v => Sys2Proof.Machine.execMemPlaceWrite n v s
  | .placeDrainDone n => Sys2Proof.Machine.execPlaceDrainDone n s
  | .retire => Sys2Proof.Machine.execRetire s
  | .retireDiscard => Sys2Proof.Machine.execRetireDiscard s
  | .softPpr => Sys2Proof.Machine.execSoftPpr s
  | .hardPpr => Sys2Proof.Machine.execHardPpr s
  | .repairDone => Sys2Proof.Machine.execRepairDone s
  | .memMaintWrite v => Sys2Proof.Machine.execMemMaintWrite v s
  | .stackTrainDone j ok => Sys2Proof.Machine.execStackTrainDone j ok s
  | .t1500Go v => Sys2Proof.Machine.execT1500Go v s
  | .t1500Done captured => Sys2Proof.Machine.execT1500Done captured s
  | .shfCtrlWrite v => Sys2Proof.Machine.execShfCtrlWrite v s
  | .fullCal mask => Sys2Proof.Machine.execFullCal mask s
  | .program mask => Sys2Proof.Machine.execProgram mask s
  | .sheafWarmEnd d ok => Sys2Proof.Machine.execSheafWarmEnd d ok s
  | .sheafCalEnd d ok colsV colsU => Sys2Proof.Machine.execSheafCalEnd d ok colsV colsU s
  | .sheafWindowEnd d ok => Sys2Proof.Machine.execSheafWindowEnd d ok s
  | .sheafForcedWindow d => Sys2Proof.Machine.execSheafForcedWindow d s
  | .sheafLockLost d => Sys2Proof.Machine.execSheafLockLost d s
  | .sheafRelockEnd d ok => Sys2Proof.Machine.execSheafRelockEnd d ok s
  | .photonicRateSample z rate => Sys2Proof.Machine.execPhotonicRateSample z rate s
  | .ringSweepEnd r found => Sys2Proof.Machine.execRingSweepEnd r found s
  | .ringCaptureEnd r err => Sys2Proof.Machine.execRingCaptureEnd r err s
  | .ringVerifyEnd r pilot margin => Sys2Proof.Machine.execRingVerifyEnd r pilot margin s
  | .ringPilotCheck r pilot => Sys2Proof.Machine.execRingPilotCheck r pilot s
  | .ringUnlock r => Sys2Proof.Machine.execRingUnlock r s
  | .laserBiasTick n k reports => Sys2Proof.Machine.execLaserBiasTick n k reports s
  | .bankSwapStart n => Sys2Proof.Machine.execBankSwapStart n s
  | .bankSwapDone n => Sys2Proof.Machine.execBankSwapDone n s
  | .forcedSwap n => Sys2Proof.Machine.execForcedSwap n s
  | .optSwap n => Sys2Proof.Machine.execOptSwap n s
  | .test p => Sys2Proof.Machine.execTest p s
  | .recovery p => Sys2Proof.Machine.execRecovery p s
  | .marginPassEnd p tx rx => Sys2Proof.Machine.execMarginPassEnd p tx rx s
  | .optSlewWrite v => Sys2Proof.Machine.execOptSlewWrite v s
  | .flitTx p lane x => Sys2Proof.Machine.execFlitTx p lane x s
  | .flitRx p lane f x => Sys2Proof.Machine.execFlitRx p lane f x s
  | .nakTimer p lane => Sys2Proof.Machine.execNakTimer p lane s
  | .linkSilenceTimeout p => Sys2Proof.Machine.execLinkSilenceTimeout p s
  | .linkStallTimeout p => Sys2Proof.Machine.execLinkStallTimeout p s
  | .trainEnd p lanes delay good => Sys2Proof.Machine.execTrainEnd p lanes delay good s
  | .identEnd p => Sys2Proof.Machine.execIdentEnd p s
  | .release p gen => Sys2Proof.Machine.execRelease p gen s
  | .hold p => Sys2Proof.Machine.execHold p s
  | .retrain p => Sys2Proof.Machine.execRetrain p s
  | .peerSilent p => Sys2Proof.Machine.execPeerSilent p s
  | .bypassToPass mask => Sys2Proof.Machine.execBypassToPass mask s
  | .bypassToBypass mask => Sys2Proof.Machine.execBypassToBypass mask s
  | .bypEnWrite v => Sys2Proof.Machine.execBypEnWrite v s
  | .bypDone k => Sys2Proof.Machine.execBypDone k s
  | .packetForward p v pkt => Sys2Proof.Machine.execPacketForward p v pkt s
  | .vc6Packet p => Sys2Proof.Machine.execVc6Packet p s
  | .cmapSample => Sys2Proof.Machine.execCmapSample s
  | .arm => Sys2Proof.Machine.execArm s
  | .disarm => Sys2Proof.Machine.execDisarm s
  | .drainDone => Sys2Proof.Machine.execDrainDone s
  | .rankInv v => Sys2Proof.Machine.execRankInv v s
  | .mcInv v => Sys2Proof.Machine.execMcInv v s
  | .rankTableWrite off wide v => Sys2Proof.Machine.execRankTableWrite off wide v s
  | .fabChipNumWrite v => Sys2Proof.Machine.execFabChipNumWrite v s
  | .fabSliceWrite v => Sys2Proof.Machine.execFabSliceWrite v s
  | .fabSeedSliceWrite v => Sys2Proof.Machine.execFabSeedSliceWrite v s
  | .readReq src pkt => Sys2Proof.Machine.execReadReq src pkt s
  | .writeReq src pkt => Sys2Proof.Machine.execWriteReq src pkt s
  | .atomicReq src pkt => Sys2Proof.Machine.execAtomicReq src pkt s
  | .mirrorWrite src pkt => Sys2Proof.Machine.execMirrorWrite src pkt s
  | .readResp src pkt => Sys2Proof.Machine.execReadResp src pkt s
  | .writeAck src pkt => Sys2Proof.Machine.execWriteAck src pkt s
  | .atomicResp src pkt => Sys2Proof.Machine.execAtomicResp src pkt s
  | .streamAck p pkt => Sys2Proof.Machine.execStreamAck p pkt s
  | .remoteTimeout tag => Sys2Proof.Machine.execRemoteTimeout tag s
  | .fabRgnWrite n w v => Sys2Proof.Machine.execFabRgnWrite n w v s
  | .fabMirWrite n w v => Sys2Proof.Machine.execFabMirWrite n w v s
  | .fabFdomWrite path v => Sys2Proof.Machine.execFabFdomWrite path v s
  | .rebuild n => Sys2Proof.Machine.execRebuild n s
  | .mirResync n => Sys2Proof.Machine.execMirResync n s
  | .mirrorSend k => Sys2Proof.Machine.execMirrorSend k s
  | .add path chip => Sys2Proof.Machine.execAdd path chip s
  | .remove path chip => Sys2Proof.Machine.execRemove path chip s
  | .clearAll path => Sys2Proof.Machine.execClearAll path s
  | .leaseRenew path sq => Sys2Proof.Machine.execLeaseRenew path sq s
  | .go path => Sys2Proof.Machine.execGo path s
  | .reclaimDrainEnd => Sys2Proof.Machine.execReclaimDrainEnd s
  | .reclaimCutoffEnd => Sys2Proof.Machine.execReclaimCutoffEnd s
  | .reclaimFlushEnd => Sys2Proof.Machine.execReclaimFlushEnd s
  | .reclaimScrubEnd tests => Sys2Proof.Machine.execReclaimScrubEnd tests s
  | .reclaimClearEnd usec => Sys2Proof.Machine.execReclaimClearEnd usec s
  | .memSeqRegWrite off wide v => Sys2Proof.Machine.execMemSeqRegWrite off wide v s
  | .kvpLowWrite v => Sys2Proof.Machine.execKvpLowWrite v s
  | .pwrClockTick powers pkg now => Sys2Proof.Machine.execPwrClockTick powers pkg now s
  | .pwrShareTick nonCompute => Sys2Proof.Machine.execPwrShareTick nonCompute s
  | .thermalSample readings hbm models powers => Sys2Proof.Machine.execThermalSample readings hbm models powers s
  | .retireSensor z k => Sys2Proof.Machine.execRetireSensor z k s
  | .sensorSpareIn z => Sys2Proof.Machine.execSensorSpareIn z s
  | .droop d => Sys2Proof.Machine.execDroop d s
  | .droopRestore d => Sys2Proof.Machine.execDroopRestore d s
  | .capWrite v => Sys2Proof.Machine.execCapWrite v s
  | .throttlePersist d mean => Sys2Proof.Machine.execThrottlePersist d mean s
  | .pacePersist => Sys2Proof.Machine.execPacePersist s
  | .ageingHour d hot => Sys2Proof.Machine.execAgeingHour d hot s
  | .thermalTrip hbm z => Sys2Proof.Machine.execThermalTrip hbm z s
  | .tripRelease => Sys2Proof.Machine.execTripRelease s
  | .tileFault e cause => Sys2Proof.Machine.execTileFault e cause s
  | .tileSelftestDone e cols other => Sys2Proof.Machine.execTileSelftestDone e cols other s
  | .spareTileCheckDone e ok => Sys2Proof.Machine.execSpareTileCheckDone e ok s
  | .sramRowReplace t bank row => Sys2Proof.Machine.execSramRowReplace t bank row s
  | .inventoryWrite ok => Sys2Proof.Machine.execInventoryWrite ok s
  | .regRead msg => Sys2Proof.Machine.execRegRead msg s
  | .regWrite msg hv => Sys2Proof.Machine.execRegWrite msg hv s
  | .descExec msg => Sys2Proof.Machine.execDescExec msg s
  | .registerSend => Sys2Proof.Machine.execRegisterSend s
  | .registerAck => Sys2Proof.Machine.execRegisterAck s
  | .faultSend => Sys2Proof.Machine.execFaultSend s
  | .faultResend => Sys2Proof.Machine.execFaultResend s
  | .faultAck fseq => Sys2Proof.Machine.execFaultAck fseq s
  | .getVersion msg => Sys2Proof.Machine.execGetVersion msg s
  | .getCapabilities msg => Sys2Proof.Machine.execGetCapabilities msg s
  | .negotiateAlgorithms msg => Sys2Proof.Machine.execNegotiateAlgorithms msg s
  | .getDigests msg => Sys2Proof.Machine.execGetDigests msg s
  | .getCertificate msg => Sys2Proof.Machine.execGetCertificate msg s
  | .challenge msg => Sys2Proof.Machine.execChallenge msg s
  | .getMeasurements msg => Sys2Proof.Machine.execGetMeasurements msg s
  | .spdmUnsupported msg => Sys2Proof.Machine.execSpdmUnsupported msg s
  | .verify => Sys2Proof.Machine.execVerify s
  | .verifyDone => Sys2Proof.Machine.execVerifyDone s
  | .lockoutEnd => Sys2Proof.Machine.execLockoutEnd s
  | .relock => Sys2Proof.Machine.execRelock s
  | .holdSet => Sys2Proof.Machine.execHoldSet s
  | .holdClr => Sys2Proof.Machine.execHoldClr s
  | .halt e => Sys2Proof.Machine.execHalt e s
  | .resume e => Sys2Proof.Machine.execResume e s
  | .stepOne e => Sys2Proof.Machine.execStepOne e s
  | .dbgTokenWrite off v => Sys2Proof.Machine.execDbgTokenWrite off v s
  | .dbgRead addr => Sys2Proof.Machine.execDbgRead addr s
  | .dbgWrite addr v hv => Sys2Proof.Machine.execDbgWrite addr v hv s
  | .undefinedOpcode e => Sys2Proof.Machine.execUndefinedOpcode e s
  | .completionTimeout q k => Sys2Proof.Machine.execCompletionTimeout q k s
  | .frefLock => Sys2Proof.Machine.execFrefLock s
  | .msixTableWrite off wide v => Sys2Proof.Machine.execMsixTableWrite off wide v s
  | .hifFaultVec => Sys2Proof.Machine.execHifFaultVec s
  | .bar0Read off len => Sys2Proof.Machine.execBar0Read off len s
  | .dbgTrstN => Sys2Proof.Machine.execDbgTrstN s
  | .extest drive => Sys2Proof.Machine.execExtest drive s

end Sys2Proof.Machine
end

