-- ==== Sys2Proof/Safety.lean ====
section
/-!
DEFINITION. The terms in which claims about the block are made: when the core domain and the firmware run, what a command may find
under way, what the fabric does by itself after a command, where a tiller stands, the canonical form of memory.
-/

namespace Sys2Proof.Machine

/-- The core domain runs: it is neither held in reset nor undefined (R465 to R467, R529). -/
abbrev Up (s : State) : Prop := s.board.coreUndef = false ∧ s.board.held = false
/-- The core domain and its firmware run (R474). -/
abbrev FwRuns (s : State) : Prop := Up s ∧ fwUp s = true
/-- No started descriptor has had all its engines stop without completing (R351): every command ends so. -/
abbrev NoneDue (s : State) : Prop := ∀ d ∈ s.hif.started, ¬ (d.wait = .engines ∧ d.engLeft = 0)
/-- What follows a command that may have given the fabric something to do: queued packets move on as far as they can, and
descriptors and decoding steps whose work has ended complete. -/
def fabricRest (s : State) : State := settleSteps (settle (drive s))
/-- `t` differs from `s` in nothing but what telling of an event changes: event registers, fault ring, MSI-X table, outputs, management
port (R393, R394, R492, R515). -/
def Told (s t : State) : Prop := t = { s with ev := t.ev, fr := t.fr, msix := t.msix, out := t.out, mgt := t.mgt }
/-- An event was raised on the state `s`, which gave `t`: its bit is set, and nothing changed but what telling of it changes. -/
abbrev Raised (s t : State) (b : EvBlk) (bit : Nat) : Prop := Told s t ∧ (evGet t b).getLsbD bit = true
/-- Nothing is armed for a beat to come: no circuit, no bank switch, no phase hint (R54). -/
abbrev NothingArmed (s : State) : Prop := (∀ n < 256, (cktGet s n).st ≠ 1) ∧ s.rt.armed = false ∧ ∀ h ∈ s.pwr.hints, h.on = true
/-- A step that is neither a fault nor a refusal. -/
def answersNext (o : Host.Outcome State Fault Refusal) : Prop := ∃ t, o = .next t

/-- Tiller `e` is about to dispatch an instruction with opcode `op`: nothing halts it, its encoding is good, its guard holds
(R123 to R127, R500). -/
abbrev AtWord (s : State) (e op : Nat) : Prop :=
  canDispatch s e = true ∧ wOp (engGet s e).word = op ∧ (engGet s e).bar = none ∧ ((engGet s e).skip = true ∨ bpHit (engGet s e) = none)
    ∧ encodingGood (engGet s e).word (fun _ => true) = true ∧ guardOf (engGet s e).preds (engGet s e).word = true
    ∧ (engGet s e).single = false
/-- No watchpoint meets the footprints of the instruction (R500). -/
abbrev NoWatch (s : State) (e : Nat) (f : List Foot × List Foot) : Prop :=
  (engGet s e).skip = true ∨ wpHit (engGet s e) f.1 f.2 = none
/-- The deferred increments of tiller `g` that stay when its queues are emptied: those before which no discarded instruction stands, whose
write would never be visible (R75, R146). -/
def incsKept (g : Engine) : List Inc :=
  g.incs.filter (fun i => (g.qmm ++ g.qvx ++ g.qmv ++ g.qsf).all (fun q => decide (i.ord ≤ q.ord)))
/-- Tiller `g` after an instruction that made it `x`: on to the next index (R62). -/
def nextInstr (g x : Engine) : Engine :=
  if g.pc.toNat = 16383 then { x with past := true, skip := false } else { x with pc := g.pc + 1, skip := false }

/-- Tiller `e` after an instruction that it dispatches and that made it `x`. -/
def tillerNext (s : State) (e : Nat) (x : Engine) : State := engPut s e (nextInstr (engGet s e) x)
/-- Tiller `e` after an instruction that made it `x` and goes on at index `pc`. -/
def tillerJump (s : State) (e : Nat) (x : Engine) (pc : Nat) : State := engPut s e { x with pc := BitVec.ofNat 14 pc, skip := false }
/-- The premises under which a statement says what an instruction does: the core domain runs, no descriptor is due, and tiller `e` is at
the instruction. -/
abbrev Ready (s : State) (e op : Nat) : Prop := Up s ∧ NoneDue s ∧ AtWord s e op
/-- The same for a branch, whose guard is its condition (R126). -/
abbrev ReadyBranch (s : State) (e op : Nat) : Prop := Up s ∧ NoneDue s ∧
  canDispatch s e = true ∧ wOp (engGet s e).word = op ∧ (engGet s e).bar = none ∧ ((engGet s e).skip = true ∨ bpHit (engGet s e) = none)
    ∧ encodingGood (engGet s e).word (fun _ => true) = true ∧ (engGet s e).single = false

/-- The core domain runs and nothing that goes on by itself is under way: no remote operation, no sy.commit, no decoding step, no
journal write, no held write, no descriptor that is due. -/
abbrev Idle (s : State) : Prop :=
  Up s ∧ NoneDue s ∧ s.rmt.ops = [] ∧ s.mir.commits = [] ∧ s.seqs.steps = [] ∧ ∀ d ∈ s.hif.started, d.wait ≠ .journal ∧ d.wait ≠ .writes

/-- Memory without faults: no uncorrectable word, no lost stack; no directory that is being cleared (R269) and no mirror entry in use. -/
abbrev Sound (s : State) : Prop :=
  s.ms.bad = [] ∧ (∀ j < stacksOf s, (stackGet s j).lost = false) ∧ s.coh.stackInv = [] ∧ s.mir.ents = []

/-- No descriptor has been fetched or started, no mirror write and no packet waits: nothing that a lapse or a cut-off would end (R414, R423). -/
abbrev NoWork (s : State) : Prop :=
  s.hif.started = [] ∧ s.hif.q = [] ∧ s.mir.ranges = [] ∧ ∀ p < portsOf s, (portGet s p).inj = [] ∧ (portGet s p).stall = []
/-- What a lapse or a cut-off makes of tiller `e` between `s` and `t`: one that runs or is halted stops when what it has issued is done, one
that is STOPPED or FAULTED stays as it is (R78, R414, R423). -/
def wentQuiet (s t : State) (e : Nat) : Prop :=
  ((engGet s e).st = .running ∨ (engGet s e).st = .halted → (engGet t e).st = if (engGet s e).exec = [] then .stopped else .quiet) ∧
  ((engGet s e).st = .stopped ∨ (engGet s e).st = .faulted → engGet t e = engGet s e)
/-- A packet on the loopback that the checks on arrival let through (R2, R320, R326, R416). -/
abbrev LoopArrives (s : State) (k : Packet) (ptype : Nat) : Prop :=
  k ∈ s.rmt.loop ∧ k.ptype.toNat = ptype ∧ fenced s k.src = false ∧ k.age.toNat < s.rt.ageLim.toNat ∧ k.slice ≠ 0 ∧ k.slice = s.rt.slice
/-- The answer of this chip to a request of its own: its packet on the loopback (R2, R353). -/
def loopAnswer (s : State) (k : Packet) (ptype : Nat) (status : Byte) (payload : List Byte) (aux : W64) : Packet :=
  { ownPacket s ptype k.src 0 payload with tag := k.tag, status := status, aux := aux }
/-- Port `p` is fitted and in state `st`. -/
abbrev PortIn (s : State) (p : Nat) (st : PortSt) : Prop := p < portsOf s ∧ (portGet s p).st = st

/-- No lane in use and no serving sheaf depends on ring `r` (R240, R244). -/
def ringUnused (s : State) : RingId → Bool
  | .drop p k => !(optGet s p).rxMap.contains k
  | .modulator p k => !(optGet s p).txMap.contains k
  | .glume d _ => (sheafGet s d).st == .off
/-- The ports that a bank feeds are all DOWN. -/
abbrev PortsDown (s : State) (n : Nat) : Prop := ∀ p ∈ bankPorts n (bankGet s n), (portGet s p).st = .down
/-- No packet waits before the arbiter of port `p`. -/
abbrev NoneParked (s : State) (p : Nat) : Prop := (portGet s p).inj = [] ∧ (portGet s p).stall = []
/-- What port `p` would discard is neither this chip's own nor on a circuit: nothing but the discard follows. -/
abbrev PortPassing (s : State) (p : Nat) : Prop :=
  NoneParked s p ∧ (∀ k ∈ (portGet s p).sending.map (fun y => y.2) ++ (portGet s p).queued, k.1 ≠ 7 ∧ k.2.src ≠ s.rt.chip)
    ∧ ∀ k ∈ (portGet s p).received, k.1 ≠ 7
/-- Between `s` and `t` spare bank `sp` began to take the place of bank `n`: its swap is under way and the modulators of the four ports have
let go (R248). -/
def swapBegun (s t : State) (n sp : Nat) : Prop :=
  (bankGet t sp).swapTo = some n ∧ (∀ p ∈ bankPorts n (bankGet s n), ∀ k < 9, loopGet t (.modulator p k) = .init)

/-- The commands that dispatch an instruction on tiller `e`, with the opcode of each. -/
def dispatchRows (e : Nat) : List (Nat × Instr) :=
  [(0x00, .nop e), (0x01, .sLi e), (0x02, .sAddi e), (0x03, .sAdd e), (0x04, .sSub e), (0x05, .sMul e), (0x06, .sAnd e), (0x07, .sOr e),
   (0x08, .sXor e), (0x09, .sShl e), (0x0A, .sShr e), (0x0B, .sSra e), (0x0C, .sMin e), (0x0D, .sMinu e), (0x0E, .sMax e), (0x0F, .sMaxu e),
   (0x10, .sAndi e), (0x11, .sShli e), (0x12, .sShri e), (0x13, .sLd ⟨e, false⟩), (0x13, .sLd ⟨e, true⟩), (0x14, .sSt e),
   (0x20, .br e), (0x21, .brLink e), (0x22, .brReg e), (0x23, .brDec e), (0x24, .pEq e), (0x25, .pNe e), (0x26, .pLt e), (0x27, .pLtu e),
   (0x28, .pGe e), (0x29, .pGeu e), (0x2A, .pEqi e), (0x2B, .pLti e), (0x2C, .pLtui e), (0x2D, .pAnd e), (0x2E, .pOr e), (0x2F, .pXor e),
   (0x30, .pNot e), (0x31, .sRdctr e), (0x32, .sBeat e), (0x33, .sEng e), (0x34, .sChip e), (0x35, .sRdtok e), (0x3F, .syEnd e)]
  ++ [(0x40, .hdSet e), (0x41, .hdBase e), (0x42, .hdShape e), (0x43, .hdRd e), (0x44, .hdClr e), (0x60, .syInc e), (0x61, .syTset e),
   (0x62, .syTwait e), (0x63, .syWait e), (0x64, .syBar e), (0x65, .syDrain e), (0x67, .hnPhase e),
   (0x80, .mvLoad e), (0x81, .mvStore e), (0x82, .mvTload e), (0x83, .mvCopy e), (0x84, .mvTcopy e), (0x85, .mvGather e), (0x86, .mvScatter e),
   (0x87, .mvCvt e), (0xA0, .fxPut e), (0xA1, .fxGet e), (0xA2, .fxAtom e), (0x66, .syCommit e), (0xC0, .mmFull e), (0xC1, .mmHalf e),
   (0xC2, .mmQuarter e), (0xC3, .mmThin e), (0xC4, .mmFullT e), (0xC5, .mmOp32 e)]
  ++ [(0xE0, .vxAdd e), (0xE1, .vxSub e), (0xE2, .vxMul e), (0xE3, .vxFma e), (0xE4, .vxMax e), (0xE5, .vxMin e), (0xE6, .vxAbs e),
   (0xE7, .vxRcp e), (0xE8, .vxCvt e), (0xE9, .vxRsum e), (0xEA, .vxRmax e), (0xEB, .vxNanc e), (0xEC, .vxPopc e), (0xED, .vxHamm e),
   (0xEE, .vxTopk e), (0xEF, .vxSamp e), (0xF0, .vxOpt e), (0xF1, .tbLoad e), (0xF2, .tbFwd e), (0xF3, .tbDer e), (0xF4, .ggSum e),
   (0xF8, .shGrain e)]

/-- The encoding rules that an opcode has beyond reserved bits and operand ranges (R127, R150, R157, R165). -/
def ownRules (op : Nat) (w : IWord) : Bool :=
  if op = 0x31 then decide (wImm w ≤ 20)
  else if op = 0x65 then wImm w != 0
  else if op = 0x66 ∨ op = 0xA0 ∨ op = 0xA1 then statMore w
  else if op = 0xA2 then atomMore w
  else if 0xC0 ≤ op ∧ op ≤ 0xC5 then mmMore w
  else if op = 0xF0 then optMore w
  else if op = 0xF3 then derMore w
  else if op = 0xF8 then grainMore w
  else if op = 0x87 ∨ (0xE0 ≤ op ∧ op ≤ 0xEF) ∨ op = 0xF2 ∨ op = 0xF4 then convMore w
  else true

/-- A queued instruction as dispatch puts it into its queue: its index and word, the handles, registers and token condition as they stand,
its footprints (R64, R70, R128). -/
def captured (g : Engine) (p : Plan) : QInstr :=
  { ord := g.ord, idx := g.pc, word := g.word, hs := g.handles, rs := g.sregs,
    tokc := if g.word.getLsbD 12 then some (fld g.word 13 6, (g.sreg (fld g.word 19 5)).setWidth 32) else none,
    srcs := p.srcs, dsts := p.dsts, taint := [] }

/-- The one fetched descriptor `d` of queue `q`, with opcode `op`, may start: its ring is enabled and has room, and the numbers of started
descriptors are in use once (R385, R390, R392). -/
abbrev DescAt (s : State) (q op : Nat) (d : List Byte) : Prop :=
  Up s ∧ frontReady s q = some d ∧ (quGet s q).got = [d] ∧ dOp d = op ∧ (cqGet s (dCq d)).en = true ∧ ringFits s (dCq d) 1 = true ∧
    ∀ x ∈ s.hif.started, x.id < s.hif.nextId
/-- A descriptor passes its checks (R384, R397). -/
abbrev Passes (s : State) (q : Nat) (c : DCheck) : Prop :=
  c.form = true ∧ c.codes = [] ∧ (∀ r ∈ c.ranges, (rangeVerdict s (quGet s q).tab r).1 = 0) ∧ cutCodes s (quGet s q) = []
/-- The two host writes of a descriptor's completion record: bytes 8 to 31, then the header (R389, Table 20-8). -/
def recordOut (s : State) (q : Nat) (d : List Byte) (st : Byte) (res : W32) : List Out :=
  let c := cqGet s (dCq d)
  let a := c.base.toNat + 32 * (c.i.toNat % 2 ^ c.log2)
  [.hostWrite (a + 8) (leBytes 4 res.toNat ++ [d.getD 0 0, 0, 0, 0] ++ leBytes 8 s.beat.now.toNat ++ leBytes 8 0),
   .hostWrite a (leBytes 8 (dSeq d + st.toNat * 2 ^ 16 + b2n ((c.i.toNat / 2 ^ c.log2) % 2 == 0) * 2 ^ 24 + q * 2 ^ 32
     + ((quGet s q).ci + 1).toNat % 2 ^ 16 * 2 ^ 48))]
/-- Between `s` and `t` the descriptor `d` of queue `q` started and completed with a status and a RESULT: CI has passed it, its record is the
next of its ring and is out on the host link, and it is no longer among the started ones. -/
def descDone (s t : State) (q : Nat) (d : List Byte) (st : Byte) (res : W32) : Prop :=
  (quGet t q).ci = (quGet s q).ci + 1 ∧ (quGet t q).got = [] ∧ t.hif.started = s.hif.started ∧
    (cqGet t (dCq d)).i = (cqGet s (dCq d)).i + 1 ∧ (cqGet t (dCq d)).resv = (cqGet s (dCq d)).resv ∧
    (s.out ++ recordOut s q d st res) <+: t.out

/-- The commands of the board: pins, rails, the trip path and the bypass switches, which act whatever the core domain does (R465 to R467, R529). -/
def boardRow : Instr → Bool
  | .auxPowerUp | .auxPowerLoss | .holdupOkRise | .holdupLow | .pwrGoodRise _ | .pwrGoodFall _ | .resetNAssert | .resetNRelease _ _ _
  | .frefLock | .frefLockTimeout | .lowTempRecheck _ | .thermalTrip _ _ | .tripRelease | .bypDone _ => true
  | _ => false
/-- The commands of the management port, of attestation and of the debug port, which answer on the AUX rails (R486, R487, R499). -/
def auxRow : Instr → Bool
  | .regRead _ | .regWrite _ _ | .descExec _ | .getVersion _ | .getCapabilities _ | .negotiateAlgorithms _ | .getDigests _
  | .getCertificate _ | .challenge _ | .getMeasurements _ | .spdmUnsupported _ | .verify | .lockoutEnd | .relock | .holdSet | .holdClr
  | .halt _ | .resume _ | .stepOne _ | .dbgTokenWrite _ _ | .dbgRead _ | .dbgWrite _ _ _ | .dbgTrstN | .extest _ => true
  | _ => false

end Sys2Proof.Machine
end

