-- ==== Sys2Proof/Certificates/Slice0/Obligations.lean ====
section
/-!
DEFINITION. The statements for the provers, in the order of the spec's chapters: what each command answers and leaves unchanged, and the rules
of the whole block.
-/

open Sys2Proof Sys2Proof.Machine

/-- R130, Table 7-4: a two-register scalar instruction writes its result to s[d] (nothing, where d is s0), counts as retired and goes on to the next
index; nothing else of the block changes. What goes beyond the spec's words here is the model's choice: log entry 33. -/
def Obligations.ScalarRegisterResults : Prop :=
  ∀ (s : State) (e : Nat) (g : Engine) (x y : W64) (put : W64 → State), g = engGet s e → x = g.sreg (wB g.word) → y = g.sreg (wC g.word) →
    (∀ v, put v = tillerNext s e ((g.setSreg (wA g.word) v).count 1)) →
    (Ready s e 0x03 → exec (.sAdd e) s = .next (put (BitVec.ofNat 64 (x.toNat + y.toNat)))) ∧
    (Ready s e 0x04 → exec (.sSub e) s = .next (put (BitVec.ofInt 64 ((x.toNat : Int) - y.toNat)))) ∧
    (Ready s e 0x05 → exec (.sMul e) s = .next (put (BitVec.ofNat 64 (x.toNat * y.toNat)))) ∧
    (Ready s e 0x06 → exec (.sAnd e) s = .next (put (x &&& y))) ∧
    (Ready s e 0x07 → exec (.sOr e) s = .next (put (x ||| y))) ∧
    (Ready s e 0x08 → exec (.sXor e) s = .next (put (x ^^^ y))) ∧
    (Ready s e 0x09 → exec (.sShl e) s = .next (put (BitVec.ofNat 64 (x.toNat * 2 ^ (y.toNat % 64))))) ∧
    (Ready s e 0x0A → exec (.sShr e) s = .next (put (BitVec.ofNat 64 (x.toNat / 2 ^ (y.toNat % 64))))) ∧
    (Ready s e 0x0B → exec (.sSra e) s = .next (put (BitVec.ofInt 64 (x.toInt / 2 ^ (y.toNat % 64))))) ∧
    (Ready s e 0x0C → exec (.sMin e) s = .next (put (BitVec.ofInt 64 (min x.toInt y.toInt)))) ∧
    (Ready s e 0x0D → exec (.sMinu e) s = .next (put (BitVec.ofNat 64 (min x.toNat y.toNat)))) ∧
    (Ready s e 0x0E → exec (.sMax e) s = .next (put (BitVec.ofInt 64 (max x.toInt y.toInt)))) ∧
    (Ready s e 0x0F → exec (.sMaxu e) s = .next (put (BitVec.ofNat 64 (max x.toNat y.toNat))))

/-- R130, Table 7-4: scalar instructions with an immediate, and the reads of counters, of the beat, of the engine's and the chip's number and of a token
counter. What goes beyond the spec's words here is the model's choice: log entries 33, 34. -/
def Obligations.ScalarImmediateResults : Prop :=
  ∀ (s : State) (e : Nat) (g : Engine) (x imm : W64) (put : W64 → State), g = engGet s e → x = g.sreg (wB g.word) →
    imm = (BitVec.ofNat 32 (fld g.word 64 32)).signExtend 64 →
    (∀ v, put v = tillerNext s e ((g.setSreg (wA g.word) v).count 1)) →
    (Ready s e 0x00 → exec (.nop e) s = .next (tillerNext s e (g.count 1))) ∧
    (Ready s e 0x01 → exec (.sLi e) s = .next (put (BitVec.ofNat 64 (fld g.word 64 64)))) ∧
    (Ready s e 0x02 → exec (.sAddi e) s = .next (put (BitVec.ofNat 64 (x.toNat + imm.toNat)))) ∧
    (Ready s e 0x10 → exec (.sAndi e) s = .next (put (x &&& imm))) ∧
    (Ready s e 0x11 → exec (.sShli e) s = .next (put (BitVec.ofNat 64 (x.toNat * 2 ^ fld g.word 64 6)))) ∧
    (Ready s e 0x12 → exec (.sShri e) s = .next (put (BitVec.ofNat 64 (x.toNat / 2 ^ fld g.word 64 6)))) ∧
    (Ready s e 0x31 → fld g.word 64 32 ≤ 20 → cycleCtr (fld g.word 64 32) = false →
      exec (.sRdctr e) s = .next (put ((g.ctr (fld g.word 64 32)).setWidth 64))) ∧
    (Ready s e 0x31 → cycleCtr (fld g.word 64 32) = true →
      ∃ v : W64, v.toNat < 2 ^ 48 ∧ (g.ctr (fld g.word 64 32) = 0 → v = 0) ∧ exec (.sRdctr e) s = .next { put v with free := s.free + 1 }) ∧
    (Ready s e 0x32 → exec (.sBeat e) s = .next (put s.beat.now)) ∧
    (Ready s e 0x33 → exec (.sEng e) s = .next (put (BitVec.ofNat 64 e))) ∧
    (Ready s e 0x34 → exec (.sChip e) s = .next (put (s.rt.chip.setWidth 64))) ∧
    (Ready s e 0x35 → exec (.sRdtok e) s = .next (put ((g.tok (wB g.word)).setWidth 64)))

/-- R129, R130, Table 7-4: comparisons and predicate logic write p[d]; a write to p0 has no effect. What goes beyond the spec's words here is the
model's choice: log entry 33. -/
def Obligations.PredicateResults : Prop :=
  ∀ (s : State) (e : Nat) (g : Engine) (x y imm : W64) (a b : Bool) (put : Bool → State), g = engGet s e → x = g.sreg (wB g.word) →
    y = g.sreg (wC g.word) → imm = (BitVec.ofNat 32 (fld g.word 64 32)).signExtend 64 →
    a = predGet g.preds (wB g.word) → b = predGet g.preds (wC g.word) →
    (∀ v, put v = tillerNext s e ((g.setPred (wA g.word) v).count 1)) →
    (Ready s e 0x24 → exec (.pEq e) s = .next (put (decide (x = y)))) ∧
    (Ready s e 0x25 → exec (.pNe e) s = .next (put (decide (x ≠ y)))) ∧
    (Ready s e 0x26 → exec (.pLt e) s = .next (put (decide (x.toInt < y.toInt)))) ∧
    (Ready s e 0x27 → exec (.pLtu e) s = .next (put (decide (x.toNat < y.toNat)))) ∧
    (Ready s e 0x28 → exec (.pGe e) s = .next (put (decide (y.toInt ≤ x.toInt)))) ∧
    (Ready s e 0x29 → exec (.pGeu e) s = .next (put (decide (y.toNat ≤ x.toNat)))) ∧
    (Ready s e 0x2A → exec (.pEqi e) s = .next (put (decide (x = imm)))) ∧
    (Ready s e 0x2B → exec (.pLti e) s = .next (put (decide (x.toInt < imm.toInt)))) ∧
    (Ready s e 0x2C → exec (.pLtui e) s = .next (put (decide (x.toNat < imm.toNat)))) ∧
    (Ready s e 0x2D → exec (.pAnd e) s = .next (put (a && b))) ∧
    (Ready s e 0x2E → exec (.pOr e) s = .next (put (a || b))) ∧
    (Ready s e 0x2F → exec (.pXor e) s = .next (put (a ^^ b))) ∧
    (Ready s e 0x30 → exec (.pNot e) s = .next (put (!a)))

/-- R131: s.ld reads 8 bytes of the own window into s[d] once no uncompleted instruction writes over them; s.st writes them once none reads or writes
over them. The address is that of byte s[a] + IMM of the window of the tiller. An s.ld that finds an uncorrectable error raises DATA (R139, R153)
and writes no register; nothing but the row of the error loses its contents (R461). R131: an own-window access whose offset is no multiple of 8 or
lies outside the stores raises ADDRESS, with the offset, and does nothing else: the queues are emptied and the tiller is FAULTED once what was
issued has completed. What goes beyond the spec's words here is the model's choice: log entries 33, 138. -/
def Obligations.OwnWindow : Prop :=
  (∀ (s : State) (e o : Nat) (acc : Bool) (off : Nat) (g : Engine), g = engGet s e → o = (g.sreg (wB g.word) + wSimm g.word).toNat → o % 8 = 0 →
    ((acc = false ∧ o < 0x1800000 ∧ off = o) ∨ (acc = true ∧ 0x1800000 ≤ o ∧ o < 0x1C00000 ∧ off = o - 0x1800000)) →
    (Ready s e 0x13 → NoWatch s e ([⟨acc, off, off + 8⟩], []) →
      (∀ i ∈ g.uncompleted, ∀ f ∈ i.dsts, ¬ (f.acc = acc ∧ f.lo < off + 8 ∧ off < f.hi)) →
      ∃ v : W64, exec (.sLd ⟨e, false⟩) s = .next (tillerNext s e ((g.setSreg (wA g.word) v).count 1)) ∧
        ∀ i < 8, v.extractLsb' (8 * i) 8 = memGet s.mem (0x010000000000 + e * 0x02000000 + o + i)) ∧
    (Ready s e 0x14 → NoWatch s e ([], [⟨acc, off, off + 8⟩]) →
      (∀ i ∈ g.uncompleted, ∀ f ∈ i.srcs ++ i.dsts, ¬ (f.acc = acc ∧ f.lo < off + 8 ∧ off < f.hi)) →
      ∃ m : Mem, exec (.sSt e) s = .next { tillerNext s e (g.count 1) with mem := m } ∧
        (∀ i < 8, memGet m (0x010000000000 + e * 0x02000000 + o + i) = (g.sreg (wA g.word)).extractLsb' (8 * i) 8) ∧
        ∀ a, (a < 0x010000000000 + e * 0x02000000 + o ∨ 0x010000000000 + e * 0x02000000 + o + 8 ≤ a) → memGet m a = memGet s.mem a) ∧
    (Ready s e 0x13 → NoWatch s e ([⟨acc, off, off + 8⟩], []) →
      (∃ i ∈ g.uncompleted, ∃ f ∈ i.dsts, f.acc = acc ∧ f.lo < off + 8 ∧ off < f.hi) → exec (.sLd ⟨e, false⟩) s = .next s) ∧
    (Ready s e 0x14 → NoWatch s e ([], [⟨acc, off, off + 8⟩]) →
      (∃ i ∈ g.uncompleted, ∃ f ∈ i.srcs ++ i.dsts, f.acc = acc ∧ f.lo < off + 8 ∧ off < f.hi) → exec (.sSt e) s = .next s) ∧
    (∀ a, a = 0x010000000000 + e * 0x02000000 + o → Ready s e 0x13 → g.owner = none → NoWatch s e ([⟨acc, off, off + 8⟩], []) →
      (∀ i ∈ g.uncompleted, ∀ f ∈ i.dsts, ¬ (f.acc = acc ∧ f.lo < off + 8 ∧ off < f.hi)) →
      ∃ t, exec (.sLd ⟨e, true⟩) s = .next t ∧
        (∀ b, (b < a / 256 * 256 ∨ a / 256 * 256 + 256 ≤ b) → memGet t.mem b = memGet s.mem b) ∧
        engGet t e = { g with
          qmm := [], qvx := [], qmv := [], qsf := [], incs := incsKept g, st := if g.exec = [] then .faulted else .running,
          exc := some ⟨6, g.pc, 0x13, 4, BitVec.ofNat 64 a, g.ord, s.beat.now⟩ })) ∧
  (∀ (s : State) (e : Nat) (g : Engine) (o : W64), g = engGet s e → o = g.sreg (wB g.word) + wSimm g.word →
    (o.toNat % 8 ≠ 0 ∨ 0x1C00000 ≤ o.toNat) → g.owner = none →
    ∀ (op : Nat) (c : Instr), ((op = 0x13 ∧ (c = .sLd ⟨e, false⟩ ∨ c = .sLd ⟨e, true⟩)) ∨ (op = 0x14 ∧ c = .sSt e)) → Ready s e op →
      ∃ t, exec c s = .next t ∧ t.mem = s.mem ∧
        engGet t e = { g with
          qmm := [], qvx := [], qmv := [], qsf := [], incs := incsKept g, st := if g.exec = [] then .faulted else .running,
          exc := some ⟨3, g.pc, BitVec.ofNat 8 op, 4, o, g.ord, s.beat.now⟩ })

/-- R126, R130, R132, Table 7-4: a branch is taken when its guard holds (br.dec: and the decremented register is not zero); br.link saves PC + 1 only
when taken, br.dec decrements whatever the guard. A taken branch to an index outside 0 to 16,383, or by a register whose bits [63:14] are not all
zero, raises ILLEGAL_ENCODING; one that is not taken never raises it. What goes beyond the spec's words here is the model's choice: log entry 33. -/
def Obligations.BranchResults : Prop :=
  ∀ (s : State) (e : Nat) (g : Engine) (w : IWord) (rel : Int) (x y : W64) (dec : Engine) (holds : Bool), g = engGet s e → w = g.word →
    rel = (g.pc.toNat : Int) + (BitVec.ofNat 32 (fld w 64 32)).toInt → x = g.sreg (wB w) → holds = guardOf g.preds w →
    dec = g.setSreg (wB w) (x - 1) → y = dec.sreg (wB w) →
    (ReadyBranch s e 0x20 → holds = true → 0 ≤ rel → rel < 16384 → exec (.br e) s = .next (tillerJump s e (g.count 1) rel.toNat)) ∧
    (ReadyBranch s e 0x20 → holds = false → exec (.br e) s = .next (tillerNext s e (g.count 1))) ∧
    (ReadyBranch s e 0x21 → holds = true → 0 ≤ rel → rel < 16384 →
      exec (.brLink e) s = .next (tillerJump s e ((g.setSreg (wA w) (BitVec.ofNat 64 (g.pc.toNat + 1))).count 1) rel.toNat)) ∧
    (ReadyBranch s e 0x21 → holds = false → exec (.brLink e) s = .next (tillerNext s e (g.count 1))) ∧
    (ReadyBranch s e 0x22 → holds = true → x.toNat < 16384 → exec (.brReg e) s = .next (tillerJump s e (g.count 1) x.toNat)) ∧
    (ReadyBranch s e 0x22 → holds = false → exec (.brReg e) s = .next (tillerNext s e (g.count 1))) ∧
    (ReadyBranch s e 0x23 → holds = true → y ≠ 0 → 0 ≤ rel → rel < 16384 →
      exec (.brDec e) s = .next (tillerJump s e (dec.count 1) rel.toNat)) ∧
    (ReadyBranch s e 0x23 → holds = false ∨ y = 0 → exec (.brDec e) s = .next (tillerNext s e (dec.count 1))) ∧
    (∀ (op : Nat) (c : Instr), g.owner = none → holds = true →
      ((op, c) = (0x20, .br e) ∧ ¬ (0 ≤ rel ∧ rel < 16384)) ∨ ((op, c) = (0x21, .brLink e) ∧ ¬ (0 ≤ rel ∧ rel < 16384)) ∨
        ((op, c) = (0x22, .brReg e) ∧ 16384 ≤ x.toNat) ∨ ((op, c) = (0x23, .brDec e) ∧ y ≠ 0 ∧ ¬ (0 ≤ rel ∧ rel < 16384)) →
      ReadyBranch s e op → ∃ t, exec c s = .next t ∧ t.mem = s.mem ∧ engGet t e = { g with
        qmm := [], qvx := [], qmv := [], qsf := [], incs := incsKept g, st := if g.exec = [] then .faulted else .running,
        exc := some ⟨1, g.pc, BitVec.ofNat 8 op, 4, 0, g.ord, s.beat.now⟩ })

/-- R134, R135, Table 7-5: the handle instructions write all 128 bits of a handle. Where a sum or a size is out of range the handle is written with
VALID 0, and only the field that the spec does not state is a free value. R146 to R150: tokens and waits. A wait that is not met stays at the
instruction and counts in SYNC_WAIT; sy.inc and sy.bar defer their increments, in ascending engine order. What goes beyond the spec's words here is
the model's choice: log entries 31, 33, 34. -/
def Obligations.HandlesAndTokens : Prop :=
  (∀ (s : State) (e : Nat) (g : Engine) (w : IWord) (h : BitVec 128) (x y : W64) (b : Int) (put : BitVec 128 → State), g = engGet s e → w = g.word →
    h = g.hand (wB w) → x = g.sreg (wC w) → y = g.sreg (wD w) → b = (fld h 0 19 : Int) + x.toInt →
    (∀ v, put v = tillerNext s e ((g.setHand (wA w) v).count 1)) →
    (Ready s e 0x40 → exec (.hdSet e) s =
      .next (put (withValid (BitVec.ofNat 128 ((g.sreg (wB w)).toNat + (g.sreg (wC w)).toNat % 2 ^ 63 * 2 ^ 64))))) ∧
    (Ready s e 0x41 → 0 ≤ b → b < 2 ^ 19 → exec (.hdBase e) s = .next (put (withValid (setFld h 0 19 b.toNat)))) ∧
    (Ready s e 0x41 → b < 0 ∨ 2 ^ 19 ≤ b →
      ∃ v : BitVec 128, exec (.hdBase e) s = .next { put v with free := s.free + 1 } ∧ v.getLsbD 127 = false ∧ fld v 19 108 = fld h 19 108) ∧
    (Ready s e 0x42 → 1 ≤ x.toNat → x.toNat ≤ 65535 → 1 ≤ y.toNat → y.toNat ≤ 65535 →
      exec (.hdShape e) s = .next (put (withValid (setFld (setFld h 32 16 x.toNat) 48 16 y.toNat)))) ∧
    (Ready s e 0x42 → ¬ (1 ≤ x.toNat ∧ x.toNat ≤ 65535 ∧ 1 ≤ y.toNat ∧ y.toNat ≤ 65535) →
      ∃ v : BitVec 128, exec (.hdShape e) s = .next { put v with free := s.free + 1 } ∧ v.getLsbD 127 = false ∧
        fld v 0 32 = fld h 0 32 ∧ fld v 64 63 = fld h 64 63) ∧
    (Ready s e 0x43 → exec (.hdRd e) s =
      .next (tillerNext s e ((g.setSreg (wA w) (BitVec.ofNat 64 (fld h (64 * fld w 64 1) 64))).count 1))) ∧
    (Ready s e 0x44 → exec (.hdClr e) s = .next (put 0))) ∧
  (∀ (s : State) (e : Nat) (g : Engine) (w : IWord) (x y : W64), g = engGet s e → w = g.word → x = g.sreg (wB w) → y = g.sreg (wC w) →
    (Ready s e 0x61 → exec (.syTset e) s = .next (tillerNext s e ((g.setTok (wA w) (x.setWidth 32)).count 1))) ∧
    (Ready s e 0x62 → x.toNat % 2 ^ 32 ≤ (g.tok (wA w)).toNat → exec (.syTwait e) s = .next (tillerNext s e (g.count 1))) ∧
    (Ready s e 0x62 → (g.tok (wA w)).toNat < x.toNat % 2 ^ 32 → exec (.syTwait e) s = .next (engPut s e (g.count 3))) ∧
    (Ready s e 0x63 → workDue s = false → x.toNat ≤ s.beat.now.toNat →
      exec (.syWait e) s = .next (tillerNext s e (g.count 1)) ∧ exec (.beatWaitRelease e) s = .next (tillerNext s e (g.count 1))) ∧
    (Ready s e 0x63 → s.beat.now.toNat < x.toNat → exec (.syWait e) s = .next (engPut s e (g.count 3))) ∧
    (Ready s e 0x60 → x.toNat < 64 → present s x.toNat = true → g.incs.length < 16 →
      exec (.syInc e) s = .next (tillerNext s e ({ g with incs := g.incs ++ [(⟨wA w, x.toNat, g.ord⟩ : Inc)] }.count 1))) ∧
    (Ready s e 0x60 → x.toNat < 64 → present s x.toNat = true → 16 ≤ g.incs.length → exec (.syInc e) s = .next s) ∧
    (Ready s e 0x64 → (∀ i ∈ setBits 64 x.toNat, present s i = true) → g.incs.length + (setBits 64 x.toNat).length ≤ 16 →
      y.toNat % 2 ^ 32 ≤ (g.tok (wA w)).toNat →
      exec (.syBar e) s =
        .next (tillerNext s e ({ g with incs := g.incs ++ (setBits 64 x.toNat).map (fun i => (⟨wA w, i, g.ord⟩ : Inc)) }.count 1))) ∧
    (Ready s e 0x64 → (∀ i ∈ setBits 64 x.toNat, present s i = true) → g.incs.length + (setBits 64 x.toNat).length ≤ 16 →
      (g.tok (wA w)).toNat < y.toNat % 2 ^ 32 →
      exec (.syBar e) s =
        .next (engPut s e ({ g with incs := g.incs ++ (setBits 64 x.toNat).map (fun i => (⟨wA w, i, g.ord⟩ : Inc)), bar := some 0 }.count 3))) ∧
    (∀ m, Ready s e 0x65 → m = fld w 64 32 → m ≠ 0 → (m.testBit 0 = true → g.qmm = []) → (m.testBit 1 = true → g.qvx = []) →
      (m.testBit 2 = true → g.qmv = []) → (m.testBit 3 = true → g.qsf = []) → g.exec = [] →
      exec (.syDrain e) s = .next (tillerNext s e (g.count 1))))

/-- R75, R146: the oldest deferred increment takes effect at its target once every instruction dispatched before it has completed. R152, R439, Table
3-4: hn.phase arms a hint that replaces an earlier one of its phase, and begins the ramps whose beat has passed; armed late it applies for the rest
of its length and counts as late. R63, Table 4-2: sy.end ends dispatch; the tiller stops at once where nothing is left to issue or complete, and
otherwise runs on until then. What goes beyond the spec's words here is the model's choice: log entries 27, 33, 137. -/
def Obligations.ControlCoreEnds : Prop :=
  (∀ (s : State) (e : Nat) (i : Inc) (rest : List Inc) (s' : State), Up s → NoneDue s → (engGet s e).incs = i :: rest →
    (∀ q ∈ (engGet s e).uncompleted, i.ord ≤ q.ord) → present s i.target = true →
    s' = engPut s e { engGet s e with incs := rest } → (engGet s' i.target).tok i.tok ≠ BitVec.allOnes 32 →
    exec (.syIncApply e) s =
      .next (engPut s' i.target ((engGet s' i.target).setTok i.tok ((engGet s' i.target).tok i.tok + 1)))) ∧
  (∀ (s : State) (e : Nat) (g : Engine) (ph len : Nat) (start : W64) (old : List Hint), g = engGet s e → ph = fld g.word 64 8 →
    start = g.sreg (wB g.word) → len = (g.sreg (wC g.word)).toNat % 2 ^ 32 → old = s.pwr.hints.filter (fun h => h.phase != ph) →
    Ready s e 0x67 →
    (s.beat.now.toNat < start.toNat → ∃ m : BitVec 4, exec (.hnPhase e) s =
        .next { tillerNext s e (g.count 1) with pwr := { s.pwr with hints := old ++ [⟨ph, start, len, false, true, m⟩] } } ∧
      ∀ d < 4, m.getLsbD d = decide (2 ≤ phaseCount (phaseGet s ph) ∧ rampLead s ph d ≠ 0 ∧ start.toNat ≤ s.beat.now.toNat + rampLead s ph d)) ∧
    (start.toNat ≤ s.beat.now.toNat → s.beat.now.toNat < start.toNat + len → ∃ t, exec (.hnPhase e) s = .next t ∧
      t.pwr.hints = old ++ [⟨ph, start, len, true, false, 0⟩] ∧ t.beat.late = satInc s.beat.late ∧ t.mem = s.mem ∧
      engGet t e = nextInstr g (g.count 1)) ∧
    (start.toNat + len ≤ s.beat.now.toNat → start.toNat ≤ s.beat.now.toNat → ∃ t, exec (.hnPhase e) s = .next t ∧
      t.pwr.hints = old ∧ t.beat.late = satInc s.beat.late ∧ t.mem = s.mem ∧ engGet t e = nextInstr g (g.count 1))) ∧
  (∀ (s : State) (e : Nat) (g : Engine), g = engGet s e → Ready s e 0x3F → g.owner = none →
    (g.drained = true → exec (.syEnd e) s = .next (tillerNext s e ({ g with st := .stopped }.count 1))) ∧
    (g.drained = false → exec (.syEnd e) s = .next (tillerNext s e ({ g with ending := true }.count 1))))

/-- R64, R70, R128: a queued instruction whose encoding and slabs are in order goes to the end of its queue with what it captures; the control core goes
on. It is counted when it completes. R64: a full queue stalls the control core, which counts DISPATCH_STALL and changes nothing else. What goes
beyond the spec's words here is the model's choice: log entry 34. -/
def Obligations.QueuedInstructions : Prop :=
  (∀ (s : State) (e : Nat) (g : Engine), g = engGet s e →
    let goes (op : Nat) (c : Instr) (qu : EngQueue) (more : IWord → Bool) (plan : State → Nat → IWord → Plan) : Prop :=
      ∀ p, Ready s e op → more g.word = true → p = plan s e g.word → p.code = 0 → NoWatch s e (p.srcs, p.dsts) →
        (g.queue qu).length < 32 →
        exec c s = .next (tillerNext s e { g.setQueue qu (g.queue qu ++ [captured g p]) with ord := g.ord + 1 })
    (goes 0x80 (.mvLoad e) .mv noMore planLoad ∧ goes 0x81 (.mvStore e) .mv noMore planStore ∧ goes 0x82 (.mvTload e) .mv noMore planTload ∧
      goes 0x83 (.mvCopy e) .mv noMore planCopy ∧ goes 0x84 (.mvTcopy e) .mv noMore planTcopy ∧ goes 0x85 (.mvGather e) .mv noMore planGather ∧
      goes 0x86 (.mvScatter e) .mv noMore planScatter ∧ goes 0x87 (.mvCvt e) .mv convMore planCvt) ∧
    (goes 0xA0 (.fxPut e) .sf statMore planPut ∧ goes 0xA1 (.fxGet e) .sf statMore planGet ∧ goes 0xA2 (.fxAtom e) .sf atomMore planStat ∧
      goes 0x66 (.syCommit e) .sf statMore planStat ∧ goes 0xF8 (.shGrain e) .sf grainMore planGrain) ∧
    (goes 0xC0 (.mmFull e) .mm mmMore planMm ∧ goes 0xC1 (.mmHalf e) .mm mmMore planMm ∧ goes 0xC2 (.mmQuarter e) .mm mmMore planMm ∧
      goes 0xC3 (.mmThin e) .mm mmMore planMm ∧ goes 0xC4 (.mmFullT e) .mm mmMore planMm ∧ goes 0xC5 (.mmOp32 e) .mm mmMore planMm) ∧
    (goes 0xE0 (.vxAdd e) .vx convMore planArith ∧ goes 0xE1 (.vxSub e) .vx convMore planArith ∧ goes 0xE2 (.vxMul e) .vx convMore planArith ∧
      goes 0xE3 (.vxFma e) .vx convMore planArith ∧ goes 0xE4 (.vxMax e) .vx convMore planArith ∧ goes 0xE5 (.vxMin e) .vx convMore planArith ∧
      goes 0xE6 (.vxAbs e) .vx convMore planArith ∧ goes 0xE7 (.vxRcp e) .vx convMore planArith ∧ goes 0xE8 (.vxCvt e) .vx convMore planCvt ∧
      goes 0xE9 (.vxRsum e) .vx convMore planReduce ∧ goes 0xEA (.vxRmax e) .vx convMore planReduce ∧ goes 0xEB (.vxNanc e) .vx convMore planNanc ∧
      goes 0xEC (.vxPopc e) .vx convMore planPopc ∧ goes 0xED (.vxHamm e) .vx convMore planHamm ∧ goes 0xEE (.vxTopk e) .vx convMore planTopk ∧
      goes 0xEF (.vxSamp e) .vx convMore planSamp ∧ goes 0xF0 (.vxOpt e) .vx optMore planOpt ∧ goes 0xF1 (.tbLoad e) .vx noMore planTbLoad ∧
      goes 0xF2 (.tbFwd e) .vx convMore planTable ∧ goes 0xF3 (.tbDer e) .vx derMore planTable ∧ goes 0xF4 (.ggSum e) .vx convMore planGg)) ∧
  (∀ (s : State) (e op : Nat) (g : Engine) (p : Plan), g = engGet s e → Ready s e op → p.code = 0 → NoWatch s e (p.srcs, p.dsts) →
    (mmMore g.word = true → p = planMm s e g.word → 32 ≤ g.qmm.length →
      ∀ c, ((op, c) = (0xC0, .mmFull e) ∨ (op, c) = (0xC4, .mmFullT e) ∨ (op, c) = (0xC5, .mmOp32 e)) →
        exec c s = .next (engPut s e (g.count 2))) ∧
    (p = planCopy s e g.word → 32 ≤ g.qmv.length → op = 0x83 → exec (.mvCopy e) s = .next (engPut s e (g.count 2))) ∧
    (convMore g.word = true → p = planArith s e g.word → 32 ≤ g.qvx.length →
      ∀ c, ((op, c) = (0xE0, .vxAdd e) ∨ (op, c) = (0xE2, .vxMul e) ∨ (op, c) = (0xE3, .vxFma e)) →
        exec c s = .next (engPut s e (g.count 2))))

/-- R63, R78, R126, Table 4-2: for every instruction, a tiller that may not dispatch, or that stands at another opcode, is left as it is, and one whose
guard is false goes on without effect. The branches are apart: their guard is their condition. What goes beyond the spec's words here is the model's
choice: log entries 3, 28. -/
def Obligations.GuardedDispatch : Prop :=
  ∀ (s : State) (e : Nat), ∀ r ∈ dispatchRows e, Up s → NoneDue s →
    (canDispatch s e = false ∨ wOp (engGet s e).word ≠ r.1 → exec r.2 s = .next s) ∧
    (canDispatch s e = true → wOp (engGet s e).word = r.1 → (engGet s e).bar = none →
      ((engGet s e).skip = true ∨ bpHit (engGet s e) = none) → (engGet s e).single = false → (r.1 < 0x20 ∨ 0x24 ≤ r.1) →
      guardOf (engGet s e).preds (engGet s e).word = false →
      encodingGood (engGet s e).word (ownRules r.1) = true → exec r.2 s = .next (tillerNext s e (engGet s e)))

/-- R78, R125, R153 to R155, Table 7-11: an encoding against the rules, and an opcode that no chapter defines, raise ILLEGAL_ENCODING: the queues are
emptied, what was issued goes on, the tiller keeps its place and its registers, memory is untouched, and the tiller is FAULTED once nothing is left
to complete. What goes beyond the spec's words here is the model's choice: log entries 26, 28. -/
def Obligations.IllegalEncodingRaises : Prop :=
  ∀ (s : State) (e : Nat) (g : Engine), g = engGet s e → Up s → NoneDue s → canDispatch s e = true → g.bar = none → g.owner = none →
    (g.skip = true ∨ bpHit g = none) →
    let raised (o : Host.Outcome State Fault Refusal) : Prop := ∃ t q, o = .next t ∧ t.mem = s.mem ∧ engGet t e = { g with
      qmm := [], qvx := [], qmv := [], qsf := [], incs := incsKept g, st := if g.exec = [] then .faulted else .running, single := if g.exec = [] then false else g.single,
      exc := some ⟨1, g.pc, BitVec.ofNat 8 (wOp g.word), q, 0, g.ord, s.beat.now⟩ }
    (∀ r ∈ dispatchRows e, wOp g.word = r.1 → encodingGood g.word (fun _ => true) = false → raised (exec r.2 s)) ∧
    (opSpec (wOp g.word) = none → raised (exec (.undefinedOpcode e) s))

/-- R500, Table 25-11: a breakpoint at the index halts the tiller before the dispatch of any instruction, with its number in T_STATE, and sets BREAK.
What goes beyond the spec's words here is the model's choice: log entry 28. -/
def Obligations.BreakpointHalts : Prop :=
  ∀ (s : State) (e k : Nat) (g : Engine), g = engGet s e → Up s → NoneDue s → canDispatch s e = true → g.bar = none → g.skip = false →
    bpHit g = some k → ∀ r ∈ dispatchRows e, wOp g.word = r.1 →
    ∃ t, exec r.2 s = .next t ∧ engGet t e = { g with st := .halted, single := false, cause := BitVec.ofNat 5 (1 + 4 * k) } ∧
      t.mem = s.mem ∧ (evGet t .dbg).getLsbD 2 = true

/-- R70, R71, R72, R76, R184: the head of a queue issues once no earlier uncompleted instruction writes over what it reads or touches what it writes,
its token condition holds, its unit has room and its read claim fits; a vector head gives way to a matrix head that is able. A source that is not
ready counts in the queue's wait counter; a unit without room counts in exactly one of the three, of which R73 names none: the model's choice (log
entry 152). `freed` names the units that have finished issuing. What goes beyond the spec's words here is the model's choice: log entries 34, 36,
152. -/
def Obligations.InstructionIssues : Prop :=
  ∀ (s : State) (e : Nat) (qu : EngQueue) (freed : List EngQueue) (g : Engine) (i : QInstr) (rest : List QInstr), g = issuesOver freed (engGet s e) →
    Idle s → present s e = true → (g.st = .running ∨ g.st = .halted) → g.queue qu = i :: rest →
    let sources : Prop :=
      ∀ j ∈ g.uncompleted, j.ord < i.ord → ∀ f ∈ j.dsts, ∀ k ∈ i.srcs, ¬ (f.acc = k.acc ∧ f.lo < k.hi ∧ k.lo < f.hi)
    let places : Prop :=
      ∀ j ∈ g.uncompleted, j.ord < i.ord → ∀ f ∈ j.srcs ++ j.dsts, ∀ k ∈ i.dsts, ¬ (f.acc = k.acc ∧ f.lo < k.hi ∧ k.lo < f.hi)
    (sources → places → tokOk g i = true → unitRoom s e g qu = true → claimFits g qu i = true → (qu = .vx → mmFirst s e g i = false) →
      checkIssue s e i = none → wOp i.word ≠ 0xA0 → wOp i.word ≠ 0xA1 → wOp i.word ≠ 0xA2 → wOp i.word ≠ 0x66 →
      exec (.instrIssue e ⟨qu, freed⟩) s = .next (i.used (engPut s e { (g.setQueue qu rest).counts (4 + quNum qu) with
        exec := g.exec ++ [{ qu := qu, i := i, stage := .running, issuing := qu == .mm || qu == .vx, claim := claimFor qu i,
                             fn := if readsSlot i (vSel i.word) then g.slot (vSel i.word) else FnSlot.zero,
                             granted := 0, rows := 0, odd := 0, epoch := 0, lock := sheafServes (sheafGet s (e / 16)) }] }))) ∧
    ((∃ j ∈ g.uncompleted, j.ord < i.ord ∧ ∃ f ∈ j.dsts, ∃ k ∈ i.srcs, f.acc = k.acc ∧ f.lo < k.hi ∧ k.lo < f.hi) →
      exec (.instrIssue e ⟨qu, freed⟩) s = .next (engPut s e (g.count (8 + quNum qu)))) ∧
    (sources → (∃ j ∈ g.uncompleted, j.ord < i.ord ∧ ∃ f ∈ j.srcs ++ j.dsts, ∃ k ∈ i.dsts, f.acc = k.acc ∧ f.lo < k.hi ∧ k.lo < f.hi) →
      exec (.instrIssue e ⟨qu, freed⟩) s = .next (engPut s e (g.count (12 + quNum qu)))) ∧
    (sources → places → tokOk g i = false → exec (.instrIssue e ⟨qu, freed⟩) s = .next (engPut s e (g.count (16 + quNum qu)))) ∧
    (sources → places → tokOk g i = true → unitRoom s e g qu = false →
      ∃ c, (c = 8 ∨ c = 12 ∨ c = 16) ∧
        exec (.instrIssue e ⟨qu, freed⟩) s = .next { engPut s e (g.count (c + quNum qu)) with free := s.free + 1 })

/-- R71, R73, R75: an instruction that has moved its data completes: it leaves the unit, is counted, and the token counter that its TOK names is
incremented. What goes beyond the spec's words here is the model's choice: log entries 8, 29, 153. -/
def Obligations.InstructionCompletes : Prop :=
  ∀ (s : State) (e k : Nat) (g : Engine) (x : XInstr) (left : List XInstr), g = engGet s e → Idle s → present s e = true → g.st = .running →
    g.ending = false → g.exc = none → x ∈ g.exec → x.i.ord = k → (∀ y ∈ g.exec, y.i.ord = k → y = x) →
    left = g.exec.filter (fun y => y.i.ord != k) → x.qu = .mv → x.stage = .moved → (readsHbm x.i = true ∨ writesHbm x.i = true) →
    (wOp x.i.word ≠ 0x83 ∧ wOp x.i.word ≠ 0x84 ∧ wOp x.i.word ≠ 0x87) →
    (x.i.word.getLsbD 24 = false → exec (.instrComplete e k none) s = .next (engPut s e ({ g with exec := left }.count 1))) ∧
    (x.i.word.getLsbD 24 = true → g.tok (fld x.i.word 25 6) ≠ BitVec.allOnes 32 →
      exec (.instrComplete e k none) s =
        .next (engPut s e (({ g with exec := left }.count 1).setTok (fld x.i.word 25 6) (g.tok (fld x.i.word 25 6) + 1))))

/-- R42, R138, R272, R273: read data that come back fill the slab, and writes that their homes accept replace the bytes of HBM; in both cases no other
byte of memory changes. The statement is about an instruction of one memory run. R180: a granted group of up to 64 rows of sh.grain comes back: the
rows count as formed. What goes beyond the spec's words here is the model's choice: log entries 8, 42. -/
def Obligations.TransfersAndGrains : Prop :=
  (∀ (s : State) (e k a off n : Nat) (x : XInstr), Idle s → issuedFind (engGet s e) k = some x → x.qu = .mv → x.stage = .running →
    x.i.taint = [] → transferRuns s e x.i = [(a, off, n)] → hbmOk s a n = true → 0 < n → Sound s →
    (wOp x.i.word = 0x80 → readsHbm x.i = true →
      ∃ t, exec (.hbmReadReturn e k [] []) s = .next t ∧
      (∀ j < n, memGet t.mem (storeAddr e x.i.slabA.acc off + j) = memGet s.mem (a + j)) ∧
      (∀ b, (b < storeAddr e x.i.slabA.acc off ∨ storeAddr e x.i.slabA.acc off + n ≤ b) → memGet t.mem b = memGet s.mem b) ∧
      t = { s with mem := t.mem, coh := t.coh, engines := (engPut s e (issuedMod (engGet s e) k (fun y => { y with stage := .moved }))).engines }) ∧
    (wOp x.i.word = 0x81 → writesHbm x.i = true →
      ∃ t, exec (.hbmWriteAck e k) s = .next t ∧
      (∀ j < n, memGet t.mem (a + j) = memGet s.mem (storeAddr e x.i.slabA.acc off + j)) ∧
      (∀ b, (b < a ∨ a + n ≤ b) → memGet t.mem b = memGet s.mem b) ∧
      t = { s with mem := t.mem, coh := t.coh, engines := (engPut s e (issuedMod (engGet s e) k (fun y => { y with stage := .moved }))).engines })) ∧
  (∀ (s : State) (e k n : Nat) (x : XInstr), Idle s → issuedFind (engGet s e) k = some x → wOp x.i.word = 0xF8 → x.lock = true →
    x.rows < x.i.slabA.rows → x.rows < 64 * x.granted → n = min 64 (x.i.slabA.rows - x.rows) →
    ∃ t, exec (.grainGroupDone e k) s = .next t ∧ t.free = s.free + n * x.i.slabA.cols ∧
      (issuedFind (engGet t e) k).map (fun y => y.rows) = some (x.rows + n) ∧
      t = { s with mem := t.mem, engines := t.engines, free := t.free })

/-- R285, R291: an arbiter grants its only requester: its used count goes up, or starts a new round at 1, the pointer moves past it when its weight is
used up, and nothing else of the block changes. A cycle that a throttled stack withholds (R444) serves no requester and ages none; which cycles
those are is the model's choice (log entry 162). R285, R289: of two requesters at or after the pointer that both have weight left, the lower is
granted and the other stays, older by the cycles for which the granted unit keeps the resource (their number is the model's choice, log entry 71).
R287, R291: a weight write sets the weight of every assigned requester of its group; a weight of 0 for one of them refuses the whole write. What
goes beyond the spec's words here is the model's choice: log entry 71. -/
def Obligations.ArbiterDecisions : Prop :=
  (∀ (s : State) (k i r n : Nat) (a : Arb), Idle s → (k = 0 ∨ k = 1 ∨ k = 2 ∨ k = 3 ∨ k = 6) → i < arbInstances s k → mayAsk s k i r = true →
    linkLost s k i = false → a = arbGet s k i → a.reqs = [] → 0 < weightOf s k r → 0 < starveTh s k →
    n = (if tblGet (fun _ => 0) a.used r < weightOf s k r then tblGet (fun _ => 0) a.used r + 1 else 1) →
    ((k = 0 → (stackGet s (i / 32)).throttle = false) → ∃ t, exec (.arbDecision k i [r]) s = .next t ∧ (arbGet t k i).reqs = [] ∧
      tblGet (fun _ => 0) (arbGet t k i).used r = n ∧ (arbGet t k i).p = (if weightOf s k r ≤ n then (r + 1) % 128 else r) ∧
      t = { s with arb := t.arb }) ∧
    (k = 0 → (stackGet s (i / 32)).throttle = true → (withholds s k i).1 = true → ∃ t, exec (.arbDecision k i [r]) s = .next t ∧
      arbGet t k i = { a with reqs := [⟨r, 1, 0, false⟩] } ∧ t = { s with arb := t.arb })) ∧
  (∀ (s : State) (k i r x c : Nat) (a : Arb), Idle s → (k = 0 ∨ k = 1 ∨ k = 2 ∨ k = 3) → i < arbInstances s k → r < x →
    mayAsk s k i r = true → mayAsk s k i x = true → linkLost s k i = false → (k = 0 → (stackGet s (i / 32)).throttle = false) →
    a = arbGet s k i → a.reqs = [] → a.p ≤ r →
    tblGet (fun _ => 0) a.used r < weightOf s k r → c = (if k = 0 then (if r = 68 then 3 else 10) else 1) → c < starveTh s k →
    ∃ t, exec (.arbDecision k i [r, x]) s = .next t ∧ (arbGet t k i).reqs = [⟨x, 1, c, false⟩] ∧
      tblGet (fun _ => 0) (arbGet t k i).used r = tblGet (fun _ => 0) a.used r + 1 ∧ t = { s with arb := t.arb }) ∧
  (∀ (s : State) (k g : Nat) (v : W32), FwRuns s → k < 7 → g < 16 →
    ((∀ i < 8, assigned s k (8 * g + i) = true → fld v (4 * i) 4 ≠ 0) → ∃ t, exec (.arbWeightWrite k g v) s = .next t ∧
      (∀ k' < 7, ∀ r < 128, weightOf t k' r =
        if k' = k ∧ r / 8 = g ∧ assigned s k r = true then fld v (4 * (r % 8)) 4 else weightOf s k' r) ∧ t = { s with arb := t.arb }) ∧
    ((∃ i < 8, assigned s k (8 * g + i) = true ∧ fld v (4 * i) 4 = 0) → ∃ t, exec (.arbWeightWrite k g v) s = .next t ∧
      t.arb = s.arb ∧ t.mem = s.mem ∧ (evGet t .memArb).getLsbD 7 = true))

/-- R36, R38: a region is assigned only while it is UNASSIGNED and drained; its contents are then unspecified. An assigned region written UNASSIGNED
drains first, with the stacks it held; until it has drained a further write of UNASSIGNED has no effect, and then no die cache holds a line of it.
What goes beyond the spec's words here is the model's choice: log entries 23, 155, 156. -/
def Obligations.PlacementWrites : Prop :=
  ∀ (s : State) (n : Nat) (v : W32) (old p : Place), FwRuns s → n < regionsOf s → old = placeGet s n →
    p = { cls := BitVec.ofNat 2 (fld v 0 2), die := BitVec.ofNat 2 (fld v 4 2), stack := BitVec.ofNat 4 (fld v 8 4), nc := v.getLsbD 12,
          err := old.err && !v.getLsbD 30, pending := old.pending } →
    (old.cls = 0 → p.cls ≠ 0 → placeRefused s n old p = false → ∃ t, exec (.memPlaceWrite n v) s = .next t ∧ placeGet t n = p ∧
      (∀ k, k ≠ n → placeGet t k = placeGet s k) ∧ (∀ a, a / 2 ^ 30 ≠ n → memGet t.mem a = memGet s.mem a) ∧
      t = { s with ms := t.ms, mem := t.mem, free := t.free }) ∧
    (p.cls ≠ 0 → p ≠ { old with err := p.err } → placeRefused s n old p = true →
      exec (.memPlaceWrite n v) s = .next (placePut s n { old with err := true })) ∧
    (old.cls ≠ 0 → old.pending = false → p.cls = 0 → ∃ t, exec (.memPlaceWrite n v) s = .next t ∧ placeGet t n = { p with pending := true } ∧
      (∀ k, k ≠ n → placeGet t k = placeGet s k) ∧ drainsOf t n = stackList s old ∧ (∀ w ∈ t.ms.bad, w / 2 ^ 30 ≠ n) ∧
      t = { s with ms := t.ms }) ∧
    (old.pending = true → p.cls = 0 → exec (.memPlaceWrite n v) s = .next s) ∧
    (old.pending = true → ∃ t, exec (.placeDrainDone n) s = .next t ∧ placeGet t n = { old with pending := false } ∧
      (∀ d < 4, ∀ l ∈ cacheGet t d, l / 2 ^ 23 ≠ n) ∧ t.mem = s.mem ∧ t.engines = s.engines)

/-- R275 to R281: a repair command runs when none is running; its outcome stands in RESULT when it is done. RETIRE keeps the contents of the unit,
RETIRE_DISCARD leaves only that unit unspecified; both use a page of the pool. While one runs another is refused. What goes beyond the spec's words
here is the model's choice: log entry 23. -/
def Obligations.RepairCommands : Prop :=
  ∀ (s : State) (a j u : Nat) (k : Stack), FwRuns s → a = fld s.ms.repairAddr 0 48 → j = stackOf s a → u = a / 4096 → k = stackGet s j →
    (s.ms.busy = false → hbmOk s a 1 = true → k.pool ≠ 0 → readFails s (4096 * u) 4096 = false → ∃ t, exec .retire s = .next t ∧
      t.ms.busy = true ∧ t.ms.pend = 0 ∧ (stackGet t j).pool = k.pool - 1 ∧ (stackGet t j).retired = satInc k.retired ∧
      u ∉ (stackGet t j).ue ∧ t.mem = s.mem ∧ t.inv.dirty = true) ∧
    (s.ms.busy = false → hbmOk s a 1 = true → k.pool ≠ 0 → k.lost = false → ∃ t, exec .retireDiscard s = .next t ∧
      t.ms.busy = true ∧ t.ms.pend = 0 ∧ (stackGet t j).pool = k.pool - 1 ∧ (∀ w ∈ t.ms.bad, w / 4096 ≠ u) ∧
      ∀ b, b / 4096 ≠ u → memGet t.mem b = memGet s.mem b) ∧
    (s.ms.busy = false → hbmOk s a 1 = true → k.lost = false → s.ms.bad = [] → unitBank u ∉ k.soft → exec .softPpr s =
      .next { stackPut s j { k with soft := k.soft ++ [unitBank u] } with
        ms := { (stackPut s j { k with soft := k.soft ++ [unitBank u] }).ms with
          busy := true, pend := 0, rstack := BitVec.ofNat 4 j } }) ∧
    (∀ i, s.ms.busy = false → i = repairStack s a → hbmPop s a 1 = true → i < stacksOf s → (stackGet s i).maint = true →
      ∃ t, exec .hardPpr s = .next t ∧ t.ms.busy = true ∧ t.mem = s.mem ∧
        ∀ used, used = tblGet (fun _ => 0) (stackGet s i).hppUsed (unitBank u) →
          (used < Config.hardSpares i (unitBank u) → t.ms.pend = 0 ∧ tblGet (fun _ => 0) (stackGet t i).hppUsed (unitBank u) = used + 1) ∧
          (Config.hardSpares i (unitBank u) ≤ used → t.ms.pend = 3 ∧ stackGet t i = stackGet s i)) ∧
    (s.ms.busy = true → ∃ t, exec .repairDone s = .next t ∧ t.ms = { s.ms with busy := false, result := s.ms.pend } ∧ t.mem = s.mem ∧
      (evGet t .mem).getLsbD 5 = true) ∧
    (s.ms.busy = true → ∀ c, (c = .retire ∨ c = .retireDiscard ∨ c = .softPpr ∨ c = .hardPpr) → ∃ t, exec c s = .next t ∧ t.ms = s.ms ∧
      t.mem = s.mem ∧ (evGet t .mem).getLsbD 6 = true)

/-- R272, R274: a patrol scrub reads one sector of HBM: a word found uncorrectable is counted for its stack, its unit is recorded for retirement and UE
is set; a good sector changes nothing. R279: maintenance, the training that ends it, and the IEEE 1500 test port of a stack in maintenance. What
goes beyond the spec's words here is the model's choice: log entries 46, 65. -/
def Obligations.ScrubAndMaintenance : Prop :=
  (∀ (s : State) (addr a : Nat), Up s → a = addr / 256 * 256 → s.ms.ctrl.getLsbD 0 = true → hbmOk s a 256 = true → touchesLost s a 256 = false →
    (badIn s a 256 = [] → exec (.patrolScrub addr [] []) s = .next s) ∧
    (∀ w j, badIn s a 256 = [] → w % 8 = 0 → a ≤ w → w < a + 256 → j = stackOf s w → ∃ t, exec (.patrolScrub addr [] [w]) s = .next t ∧
      (stackGet t j).ueCount = satInc (stackGet s j).ueCount ∧ w / 4096 ∈ (stackGet t j).ue ∧ t.ms.bad = insertAsc w s.ms.bad ∧ t.mem = s.mem ∧
      (evGet t .mem).getLsbD 1 = true) ∧
    (∀ w j, badIn s a 256 = [w] → j = stackOf s w → ∃ t, exec (.patrolScrub addr [] []) s = .next t ∧
      (stackGet t j).ueCount = satInc (stackGet s j).ueCount ∧ w / 4096 ∈ (stackGet t j).ue ∧ t.ms.bad = s.ms.bad ∧ t.mem = s.mem ∧
      (evGet t .mem).getLsbD 1 = true)) ∧
  (∀ (s : State) (j : Nat) (v : W32) (cap : W64), j < stacksOf s →
    (FwRuns s → s.hif.locked = false → s.ms.maint = 0 → v = BitVec.ofNat 32 (2 ^ j) → mayMaintain s j = true →
      ∃ t, exec (.memMaintWrite v) s = .next t ∧ t.ms.maint = v ∧ stackGet t j = { stackGet s j with maint := true, training := false } ∧
        (∀ i, i ≠ j → stackGet t i = stackGet s i) ∧ t = { s with ms := t.ms }) ∧
    (FwRuns s → s.hif.locked = true → exec (.memMaintWrite v) s = .next s) ∧
    (Up s → (stackGet s j).training = true → (stackGet s j).ue = [] → exec (.stackTrainDone j true) s =
      .next (stackPut { s with ms := { s.ms with parked := s.ms.parked.filter (fun x => x.2 != j) } } j
        { stackGet s j with maint := false, training := false })) ∧
    (Up s → (stackGet s j).training = true → ∃ t, exec (.stackTrainDone j false) s = .next t ∧
      stackGet t j = { stackGet s j with lost := true, maint := false, training := false } ∧ t.boot.degraded = true ∧ t.mem = s.mem) ∧
    (FwRuns s → fld v 0 4 = j → s.ms.t1500Busy = false → (stackGet s j).maint = true →
      exec (.t1500Go v) s = .next { s with ms := { s.ms with t1500Ctrl := BitVec.ofNat 32 (v.toNat % 2 ^ 18), t1500Busy := v.getLsbD 18 } }) ∧
    (Up s → s.ms.t1500Busy = true → exec (.t1500Done cap) s =
      .next { s with ms := { s.ms with t1500Busy := false,
                                       t1500Data := BitVec.ofNat 64 (cap.toNat % 2 ^ (fld s.ms.t1500Ctrl 12 6 + 1)) } }))

/-- R265 to R269: a die cache fills the two lines of a sector, the home keeps a HOLDERS bit for each, and invalidations and evictions take the lines and
the bits away. A FILL that meets an uncorrectable directory entry waits until every other die has dropped the lines of the stack, and DIR_ERR tells
of it (R269, R282). Memory is never changed by them. What goes beyond the spec's words here is the model's choice: log entries 25, 72. -/
def Obligations.CacheProtocol : Prop :=
  ∀ (s : State) (d a j n k : Nat), Up s → d < 4 → j = stackOf s a → n = a / 128 → k = a / 256 →
    (cacheable s d a = true → n ∉ cacheGet s d → stackInvOf s j = 0 → readFails s (k * 256) 256 = false → fullSets s j a = [] →
      ∃ t, exec (.fill d a ⟨false, []⟩) s = .next t ∧ (d, k) ∈ t.coh.sent ∧
        (∀ l, (l = 2 * k ∨ l = 2 * k + 1) → ∃ h, dirFind (dirGet t j) l = some h ∧ h.getLsbD d = true) ∧ t = { s with coh := t.coh }) ∧
    ((d, k) ∈ s.coh.sent → (∀ l, (l = 2 * k ∨ l = 2 * k + 1) → ∃ h, dirFind (dirGet s j) l = some h ∧ h.getLsbD d = true) →
      ∃ t, exec (.fillData d a) s = .next t ∧ 2 * k ∈ cacheGet t d ∧ 2 * k + 1 ∈ cacheGet t d ∧ dirGet t j = dirGet s j ∧
        t = { s with coh := t.coh }) ∧
    (n ∉ cacheGet s d → (d, k) ∉ s.coh.sent → heldOf s j = [] → ∃ t, exec (.evict d a) s = .next t ∧
      (∀ h, dirFind (dirGet t j) n = some h → h.getLsbD d = false) ∧ t = { s with coh := t.coh }) ∧
    ((d, n) ∈ s.coh.invs → (d, k) ∉ s.coh.sent → ∃ t, exec (.inv d a) s = .next t ∧ n ∉ cacheGet t d ∧
      (∀ l, l ≠ n → (l ∈ cacheGet t d ↔ l ∈ cacheGet s d)) ∧ t = { s with coh := t.coh }) ∧
    ((n, d) ∈ acksOf s j → (d, n) ∉ s.coh.invs → heldOf s j = [] → ∃ t, exec (.invAck d a) s = .next t ∧
      acksOf t j = (acksOf s j).erase (n, d) ∧ (∀ h, dirFind (dirGet t j) n = some h → h.getLsbD d = false) ∧ t = { s with coh := t.coh }) ∧
    (cacheable s d a = true → stackInvOf s j = 0 → ∃ t, exec (.fill d a ⟨true, []⟩) s = .next t ∧
      stackInvOf t j = putBit 0xF (stackDie s j) false ∧ heldOf t j = heldOf s j ++ [(⟨d, a⟩ : HeldFill)] ∧ t = { s with coh := t.coh }) ∧
    (Idle s → stackInvOf s j = BitVec.ofNat 4 (2 ^ d) → heldOf s j = [] → ∃ t, exec (.invStack d j) s = .next t ∧ dirGet t j = [] ∧
      stackInvOf t j = 0 ∧ (∀ l ∈ cacheGet t d, stackOf s (128 * l) ≠ j) ∧ Raised { s with coh := t.coh } t .mem 4)

/-- R378, Table 20-4: START reads the queue's table entry and its producer index and makes the queue ACTIVE and empty; STOP drops what has not started
and passes it. START is refused before READY and where the entry is bad. R380: a poll reads the summary; groups whose counter changed have their
producer indices read; an ACTIVE queue takes the index it is given, and one that leaves more in the ring than it holds puts the queue in ERROR. What
goes beyond the spec's words here is the model's choice: log entries 88, 89. -/
def Obligations.QueuesAndDoorbells : Prop :=
  (∀ (s : State) (q : Nat) (hv : HostView) (l : List Byte) (pi : W32) (x : Queue), FwRuns s → q < 1024 → x = quGet s q →
    l = hostBytes hv (s.hif.qtBase.toNat + 64 * q) 64 → pi = BitVec.ofNat 32 (hostNat hv (s.hif.dbBase.toNat + 4 * q) 4) →
    (s.boot.stage = 13 → (x.st = .disabled ∨ x.st = .error) → s.hif.up = true → hv.fail = .none → qtabOk l = true → exec (.start q hv) s =
      .next (quPut s q { st := .active, err := 0, ci := pi, pi := pi, fetched := pi, tab := qtabOf l, got := [], snap := none })) ∧
    ((s.boot.stage ≠ 13 ∨ x.st = .active ∨ x.st = .stopping ∨ (hv.fail = .none ∧ qtabOk l = false)) →
      ∃ t, exec (.start q hv) s = .next t ∧ t.hif = s.hif ∧ t.mem = s.mem ∧ (evGet t .hif).getLsbD 3 = true) ∧
    (Idle s → x.st = .active → (∀ d ∈ s.hif.started, d.q ≠ some q) →
      exec (.stop q) s = .next (quPut s q { x with st := .disabled, ci := x.pi, fetched := x.pi, got := [] })) ∧
    (Idle s → x.st = .active → (∃ d ∈ s.hif.started, d.q = some q) →
      exec (.stop q) s = .next (quPut s q { x with st := .stopping, ci := x.pi, fetched := x.pi, got := [] }))) ∧
  (∀ (s : State) (g q : Nat) (hv : HostView) (c : W32), Idle s → hv.fail = .none → s.hif.up = true →
    (s.hif.en = true → exec .doorbellPoll s = .next { s with hif := { s.hif with sumOut := s.hif.sumOut + 1 } }) ∧
    (0 < s.hif.sumOut → g < 32 → c = BitVec.ofNat 32 (hostNat hv (s.hif.sumBase.toNat + 4 * g) 4) →
      ∃ t, exec (.summaryReadReturn hv) s = .next t ∧ tblGet (fun _ => 0) t.hif.sums g = c ∧ t.hif.sumOut = s.hif.sumOut - 1 ∧
        (c ≠ tblGet (fun _ => 0) s.hif.sums g → g ∈ t.hif.groupOut) ∧ t = { s with hif := t.hif }) ∧
    (g ∈ s.hif.groupOut → q / 32 = g → c = BitVec.ofNat 32 (hostNat hv (s.hif.dbBase.toNat + 4 * q) 4) → (quGet s q).st = .active →
      (c - (quGet s q).ci).toNat ≤ 2 ^ (quGet s q).tab.log2 →
      ∃ t, exec (.groupReadReturn g hv) s = .next t ∧ quGet t q = { quGet s q with pi := c }) ∧
    (g ∈ s.hif.groupOut → q / 32 = g → c = BitVec.ofNat 32 (hostNat hv (s.hif.dbBase.toNat + 4 * q) 4) → (quGet s q).st = .active →
      c ≠ (quGet s q).pi → 2 ^ (quGet s q).tab.log2 < (c - (quGet s q).ci).toNat →
      ∃ t, exec (.groupReadReturn g hv) s = .next t ∧ quGet t q = { quGet s q with st := .error, err := 1, got := [] } ∧
        (evGet t .hif).getLsbD 0 = true))

/-- R380, R381: the weighted round robin grants the fetch of an ACTIVE queue that has new descriptors, which come in order; a read that fails puts the
queue in ERROR. The statement is about one descriptor, of the only queue that has any. R57: a descriptor held by NOT_BEFORE_BEAT starts once that
beat has come, as it would have at once without one; before, it is left waiting. R395: the answer of a started descriptor's read of host memory ends
it: the bytes are in place, or the read failed and its status says how. What goes beyond the spec's words here is the model's choice: log entries 9,
87. -/
def Obligations.DescriptorsWait : Prop :=
  (∀ (s : State) (q a m : Nat) (x : Queue) (hv : HostView), Idle s → x = quGet s q → x.st = .active → x.pi = x.fetched + 1 → x.ci = x.fetched →
    x.got = [] → x.tab.weight ≠ 0 → (∀ e ∈ s.hif.q, e.2.fetchLen ≠ 0 → e.1 = q) →
    s.hif.up = true → x.tab.hbm = false → a = x.tab.ring.toNat + 64 * (x.fetched.toNat % 2 ^ x.tab.log2) →
    m = (if tblGet (fun _ => 0) s.hif.fetchU q < x.tab.weight then tblGet (fun _ => 0) s.hif.fetchU q + 1 else 1) →
    (hv.fail = .none → dKnown (dOp (hostBytes hv a 64)) = true → ∃ t, exec (.descFetchReturn q hv) s = .next t ∧
      quGet t q = { x with fetched := x.pi, got := [hostBytes hv a 64] } ∧ (∀ k, k ≠ q → quGet t k = quGet s k) ∧
      tblGet (fun _ => 0) t.hif.fetchU q = m ∧ t.hif.fetchP = (if x.tab.weight ≤ m then (q + 1) % 1024 else q) ∧
      t = { s with hif := { s.hif with q := t.hif.q, fetchP := t.hif.fetchP, fetchU := t.hif.fetchU } }) ∧
    (hv.fail ≠ .none → ∃ t, exec (.descFetchReturn q hv) s = .next t ∧ quGet t q = { x with st := .error, err := 2, got := [] } ∧
      (evGet t .hif).getLsbD 0 = true ∧ (evGet t .hif).getLsbD 4 = true ∧ t.mem = s.mem) ∧
    (∃ t, exec (.completionTimeout q none) s = .next t ∧ quGet t q = { x with st := .error, err := 2, got := [] } ∧
      (evGet t .hif).getLsbD 0 = true ∧ (evGet t .hif).getLsbD 4 = true ∧ t.mem = s.mem)) ∧
  (∀ (s : State) (q : Nat) (d : List Byte), Idle s → dNat d 8 6 ≠ 0 →
    (DescAt s q 0x00 d → beatReached s d = true → Passes s q (nopCheck s (quGet s q).tab d) → ∃ t, exec (.descNotBefore q) s = .next t ∧
      descDone s t q d 0 0 ∧ t = { s with hif := t.hif, out := t.out, msix := t.msix }) ∧
    ((quGet s q).got = [d] → beatReached s d = false → exec (.descNotBefore q) s = .next s)) ∧
  (∀ (s : State) (k q n dst : Nat) (x : Started) (hv : HostView), Idle s → stGet s k = some x → x.wait = .hostRead → x.q = some q →
    n = dLen x.desc → dst = cpDst x.desc →
    (dOp x.desc = 0x01 → hv.fail = .none → cpDstHost x.desc = false → cpToke x.desc = false → dst < 2 ^ 40 → n ≠ 0 → hbmOk s dst n = true →
      Sound s → ∃ t, exec (.hostReadReturn k hv) s = .next t ∧
        (∀ i < n, memGet t.mem (dst + i) = (hostBytes hv (cpSrc x.desc) n).getD i 0) ∧
        (∀ a, (a < dst ∨ dst + n ≤ a) → memGet t.mem a = memGet s.mem a) ∧ (∀ y ∈ t.hif.started, y.id ≠ k) ∧ t.engines = s.engines) ∧
    (∃ t, exec (.completionTimeout q (some k)) s = .next t ∧ (∀ y ∈ t.hif.started, y.id ≠ k) ∧ t.mem = s.mem ∧ t.engines = s.engines ∧
      (evGet t .hif).getLsbD 4 = true ∧
      ((cqGet s (dCq x.desc)).en = true → s.hif.up = true → x.codes = [] → ∃ h, h.getD 2 0 = 0x22 ∧
        .hostWrite ((cqGet s (dCq x.desc)).base.toNat + 32 * ((cqGet s (dCq x.desc)).i.toNat % 2 ^ (cqGet s (dCq x.desc)).log2)) h ∈ t.out)))

/-- R390, R392 to R394: the control registers of the rings, the reads of their heads, the coalescing timer and the fault vector. R372, R515: an event
register's bits are cleared by writing 1, but for events that arrive in the same cycle; a word of the MSI-X table is written, and unmasking a
pending vector sends its message. What goes beyond the spec's words here is the model's choice: log entries 90, 144. -/
def Obligations.RingsAndVectors : Prop :=
  (∀ (s : State) (n : Nat) (v : W32) (hv : HostView) (c : Cq), n < 256 → c = cqGet s n → hv.fail = .none →
    (FwRuns s → 4 ≤ fld v 1 5 → fld v 1 5 ≤ 16 → c.en = false → v.getLsbD 0 = true → exec (.cqCtrlWrite n v) s =
      .next (cqPut s n { c with en := true, log2 := fld v 1 5, vec := BitVec.ofNat 8 (fld v 8 8), count := BitVec.ofNat 8 (fld v 16 8),
                                time := BitVec.ofNat 8 (fld v 24 8), i := 0, head := 0, unsig := 0 })) ∧
    (FwRuns s → (fld v 1 5 < 4 ∨ 16 < fld v 1 5) → ∃ t, exec (.cqCtrlWrite n v) s = .next t ∧ t.hif = s.hif ∧ (evGet t .hif).getLsbD 3 = true) ∧
    (FwRuns s → 6 ≤ fld v 1 5 → fld v 1 5 ≤ 16 → s.fr.en = false → v.getLsbD 0 = true → exec (.frCtrlWrite v) s =
      .next { s with fr := { s.fr with log2 := fld v 1 5, en := true, j := 0, head := 0 } }) ∧
    (Idle s → c.en = true → s.hif.up = true → roomWanted s n = true → exec (.cqHeadRead n hv) s =
      .next (cqPut s n { c with head := BitVec.ofNat 32 (hostNat hv (s.hif.headBase.toNat + 4 * n) 4) })) ∧
    (Up s → s.fr.en = true → s.hif.up = true → (s.fr.j - s.fr.head).toNat = 2 ^ s.fr.log2 → exec (.frHeadRead hv) s =
      .next { s with fr := { s.fr with head := BitVec.ofNat 32 (hostNat hv (s.hif.headBase.toNat + 1024) 4) } }) ∧
    (∀ w : Vec, Up s → c.en = true → c.time ≠ 0 → c.unsig ≠ 0 → s.hif.up = true → w = tblGet (fun _ => Vec.init) s.msix c.vec.toNat →
      w.mask = false → exec (.coalTimer n) s =
        .next { cqPut s n { c with unsig := 0 } with out := s.out ++ [.msix c.vec.toNat w.addr w.data] }) ∧
    (∀ w : Vec, Up s → s.fr.due = true → s.hif.up = true → w = tblGet (fun _ => Vec.init) s.msix s.hif.faultVec.toNat → w.mask = false →
      exec .hifFaultVec s = .next { s with fr := { s.fr with due := false }, out := s.out ++ [.msix s.hif.faultVec.toNat w.addr w.data] })) ∧
  (∀ (s : State) (b : EvBlk) (m a : W32) (k : Nat) (v : W64) (w : Vec), FwRuns s → s.hif.up = true → k < 256 →
    w = tblGet (fun _ => Vec.init) s.msix k →
    (∃ t, exec (.eventClear b m a) s = .next t ∧
      (∀ i < 32, (evGet t b).getLsbD i = ((evGet s b).getLsbD i && (!m.getLsbD i || a.getLsbD i))) ∧
      (∀ c, c ≠ b → evGet t c = evGet s c) ∧ t = { s with ev := t.ev }) ∧
    (exec (.msixTableWrite (16 * k + 8) false v) s =
      .next { s with msix := tblSet (fun _ => Vec.init) s.msix k { w with data := v.setWidth 32 } }) ∧
    (w.pending = true → v.getLsbD 0 = false → exec (.msixTableWrite (16 * k + 12) false v) s =
      .next { s with msix := tblSet (fun _ => Vec.init) s.msix k { w with mask := false, pending := false },
                     out := s.out ++ [.msix k w.addr w.data] }))

/-- R370, R398: the host link trains to a generation and a width; when it goes down every queue and ring is disabled and nothing waits for host memory
any more. What goes beyond the spec's words here is the model's choice: log entry 94. -/
def Obligations.HostLink : Prop :=
  ∀ (s : State) (gen width : Nat) (flit : Bool), Idle s →
    (2 ≤ s.boot.stage → s.boot.stage ≤ 13 → 1 ≤ gen → gen ≤ 6 → width ∈ [1, 2, 4, 8, 16] → exec (.hostLinkTrain gen width flit) s =
      .next { s with hif := { s.hif with up := true, gen := BitVec.ofNat 3 gen, width := BitVec.ofNat 5 width, flit := flit } }) ∧
    (s.hif.up = true → ∃ t, exec .hostLinkDown s = .next t ∧ t.hif.up = false ∧ (∀ q, (quGet t q).st = .disabled) ∧
      (∀ n, (cqGet t n).en = false) ∧ (∀ d ∈ t.hif.started, d.q = none ∧ d.wait ≠ .hostRead) ∧ (evGet t .hif).getLsbD 1 = true ∧ t.mem = s.mem)

/-- R383, R386 to R389: descriptors that complete when they start. Each passes CI, writes its record and leaves nothing started. What goes beyond the
spec's words here is the model's choice: log entries 9, 91. -/
def Obligations.DescriptorResults : Prop :=
  ∀ (s : State) (q : Nat) (d : List Byte) (tab : QTab), tab = (quGet s q).tab →
    (DescAt s q 0x00 d → Passes s q (nopCheck s tab d) → ∃ t, exec (.nopDesc q) s = .next t ∧ descDone s t q d 0 0 ∧
      t = { s with hif := t.hif, out := t.out, msix := t.msix }) ∧
    (∀ n src dst, DescAt s q 0x01 d → NoneDue s → Passes s q (copyCheck s tab d) → n = dLen d → src = cpSrc d → dst = cpDst d → n ≠ 0 →
      cpSrcHost d = false → cpDstHost d = false → cpToke d = false → src < 2 ^ 40 → dst < 2 ^ 40 → Sound s →
      ∃ t, exec (.copy q) s = .next t ∧ descDone s t q d 0 0 ∧ (∀ i < n, memGet t.mem (dst + i) = memGet s.mem (src + i)) ∧
        (∀ a, (a < dst ∨ dst + n ≤ a) → memGet t.mem a = memGet s.mem a) ∧
        t = { s with hif := t.hif, out := t.out, msix := t.msix, mem := t.mem, coh := t.coh }) ∧
    (∀ n src e, DescAt s q 0x10 d → Passes s q (loadCheck s tab d) → n = dLen d → src = dNat d 32 8 → e = ldEng d → n ≠ 0 → dByte d 40 = 0 →
      src < 2 ^ 40 → loadWaits s d = false → Sound s →
      ∃ t, exec (.engineLoad q) s = .next t ∧ descDone s t q d 0 0 ∧
        (∀ i < n / 16, (engGet t e).instrAt (ldIndex d + i) = BitVec.ofNat 128 (leNat (memRead s.mem (src + 16 * i) 16))) ∧
        (∀ i, (i < ldIndex d ∨ ldIndex d + n / 16 ≤ i) → (engGet t e).instrAt i = (engGet s e).instrAt i) ∧
        t = { s with hif := t.hif, out := t.out, msix := t.msix, engines := (engPut s e { engGet s e with istore := (engGet t e).istore }).engines }) ∧
    (DescAt s q 0x11 d → Passes s q (resetCheck s tab d) → resetWaits s d = false → ∃ t, exec (.engineReset q) s = .next t ∧
      descDone s t q d 0 0 ∧ (∀ e < 64, engGet t e =
        if (engMask d).testBit e = true ∧ (engGet s e).st = .faulted then { engGet s e with st := .stopped, exc := none } else engGet s e) ∧
      t = { s with hif := t.hif, out := t.out, msix := t.msix, engines := t.engines }) ∧
    (DescAt s q 0x13 d → Passes s q (hintCheck s tab d) → s.beat.now.toNat < dNat d 40 8 → ∃ t, exec (.phaseHint q) s = .next t ∧
      descDone s t q d 0 0 ∧ (∃ m, t.pwr.hints = s.pwr.hints.filter (fun h => h.phase != dByte d 32) ++
        [⟨dByte d 32, BitVec.ofNat 64 (dNat d 40 8), dNat d 48 4, false, true, m⟩]) ∧
      t = { s with hif := t.hif, out := t.out, msix := t.msix, pwr := { s.pwr with hints := t.pwr.hints } })

/-- R387, Table 4-2: ENGINE_START makes every engine of its mask RUNNING at the entry index and waits for all of them. -/
def Obligations.EngineStart : Prop :=
  ∀ (s : State) (q : Nat) (d : List Byte), DescAt s q 0x12 d → Passes s q (startCheck s (quGet s q).tab d) → startWaits s d = false →
    dByte d 42 = 0 →
    ∃ t, exec (.engineStart q) s = .next t ∧ (quGet t q).ci = (quGet s q).ci + 1 ∧ (quGet t q).got = [] ∧
      t.hif.started = s.hif.started ++ [⟨s.hif.nextId, some q, d, .engines, BitVec.ofNat 32 (popc 64 (engMask d)), [], [],
        BitVec.ofNat 64 (engMask d), [], []⟩] ∧
      (∀ e < 64, (engMask d).testBit e = true → engGet t e = { (engGet s e).counts 0 with
        st := .running, pc := BitVec.ofNat 14 (dNat d 40 2), past := false, ending := false, exc := none, bar := none,
        owner := some s.hif.nextId, cutBy := 0, faultBy := 0, skip := false, single := false }) ∧
      (∀ e, (64 ≤ e ∨ (engMask d).testBit e = false) → engGet t e = engGet s e) ∧
      t = { s with hif := t.hif, engines := t.engines }

/-- R384, R397: a descriptor whose fields are not in order completes DESC_MALFORMED, and one that a lapsed lease cuts completes LEASE_EXPIRED; neither
does anything else. What goes beyond the spec's words here is the model's choice: log entries 47, 161. -/
def Obligations.DescriptorRefused : Prop :=
  ∀ (s : State) (q : Nat) (d : List Byte) (c : Instr) (op : Nat) (chk : State → QTab → List Byte → DCheck), Idle s →
    ((op, c) = (0x00, .nopDesc q) ∧ chk = nopCheck) ∨ ((op, c) = (0x01, .copy q) ∧ chk = copyCheck) ∨
      ((op, c) = (0x10, .engineLoad q) ∧ chk = loadCheck) ∨ ((op, c) = (0x12, .engineStart q) ∧ chk = startCheck) ∨
      ((op, c) = (0x30, .seqBind q) ∧ chk = bindCheck) ∨ ((op, c) = (0x35, .jrnlFlush q) ∧ chk = flushCheck) ∨
      ((op, c) = (0x41, .cktTeardown q) ∧ chk = teardownCheck) ∨ ((op, c) = (0x50, .rmtWrite q) ∧ chk = rmtCheck false) ∨
      ((op, c) = (0x60, .calWrite q) ∧ chk = calCheck) →
    DescAt s q op d →
    ((chk s (quGet s q).tab d).form = false → ∃ t, exec c s = .next t ∧ descDone s t q d 0x10 0 ∧
      t = { s with hif := t.hif, out := t.out, msix := t.msix }) ∧
    ((chk s (quGet s q).tab d).form = true → (chk s (quGet s q).tab d).codes = [] → (∀ r ∈ (chk s (quGet s q).tab d).ranges,
        (rangeVerdict s (quGet s q).tab r).1 = 0) → cutCodes s (quGet s q) = [0x41] → ∃ t, exec c s = .next t ∧ descDone s t q d 0x41 0 ∧
      t = { s with hif := t.hif, out := t.out, msix := t.msix })

/-- R209 to R211, R213: SEQ_BIND copies an entry into a free slot; SEQ_UNBIND writes the slot's entry back and frees the slot; SEQ_PATCH with STOP
changes the entry's state in both; KV_POOL fills and empties the free stack. What goes beyond the spec's words here is the model's choice: log entry
49. -/
def Obligations.SequenceDescriptors : Prop :=
  ∀ (s : State) (q i n a : Nat) (d : List Byte) (tab : QTab), Idle s → tab = (quGet s q).tab → i = sqSlot d → Sound s →
    (DescAt s q 0x30 d → Passes s q (bindCheck s tab d) → n = dNat d 32 2 → a = entryAt s n → hbmOk s a 128 = true →
      ∃ t, exec (.seqBind q) s = .next t ∧ descDone s t q d 0 0 ∧ slotGet t i = some ⟨n, memRead s.mem a 128, none⟩ ∧
        (∀ j, j ≠ i → slotGet t j = slotGet s j) ∧
        t = { s with hif := t.hif, out := t.out, msix := t.msix, seqs := { s.seqs with slots := t.seqs.slots } }) ∧
    (∀ x, DescAt s q 0x31 d → Passes s q (unbindCheck s tab d) → slotGet s i = some x → x.held = none → dByte d 37 = 0 →
      a = entryAt s x.entry → a + 128 ≤ 2 ^ 40 → hbmOk s a 128 = true → x.bytes.length = 128 →
      ∃ t, exec (.seqUnbind q) s = .next t ∧ descDone s t q d 0 0 ∧ slotGet t i = none ∧
        (∀ j < 128, memGet t.mem (a + j) = x.bytes.getD j 0) ∧ (∀ b, (b < a ∨ a + 128 ≤ b) → memGet t.mem b = memGet s.mem b) ∧
        t = { s with hif := t.hif, out := t.out, msix := t.msix, mem := t.mem, coh := t.coh, seqs := { s.seqs with slots := t.seqs.slots } }) ∧
    (∀ x, DescAt s q 0x32 d → Passes s q (patchCheck s tab d) → slotGet s i = some x → x.held = none → dByte d 37 = 2 →
      a = entryAt s x.entry → a + 128 ≤ 2 ^ 40 → hbmOk s a 128 = true → x.bytes.length = 128 →
      ∃ t, exec (.seqPatch q) s = .next t ∧ descDone s t q d 0 0 ∧
        slotGet t i = some { x with bytes := BitVec.ofNat 8 0x42 :: x.bytes.drop 1 } ∧ memGet t.mem a = 0x42 ∧
        (∀ j < 127, memGet t.mem (a + 1 + j) = x.bytes.getD (j + 1) 0) ∧
        t = { s with hif := t.hif, out := t.out, msix := t.msix, mem := t.mem, coh := t.coh, seqs := { s.seqs with slots := t.seqs.slots } }) ∧
    (DescAt s q 0x34 d → Passes s q (poolCheck s tab d) → kvOp d = 2 → s.seqs.low = 0 → ∃ t, exec (.kvPool q) s = .next t ∧ descDone s t q d 0 0 ∧
      t.seqs = { s.seqs with top := 0 } ∧ t.mem = s.mem ∧ t.engines = s.engines) ∧
    (DescAt s q 0x34 d → Passes s q (poolCheck s tab d) → kvOp d = 0 → dCount d = 1 → n = s.seqs.top.toNat → a = stackAt s n →
      a + 4 ≤ 2 ^ 40 → kvList d + 4 ≤ 2 ^ 40 → hbmOk s (kvList d) 4 = true → hbmOk s a 4 = true →
      ∃ t, exec (.kvPool q) s = .next t ∧ descDone s t q d 0 0 ∧ t.seqs.top = BitVec.ofNat 32 (n + 1) ∧
        (∀ j < 4, memGet t.mem (a + j) = memGet s.mem (kvList d + j)) ∧ (∀ b, (b < a ∨ a + 4 ≤ b) → memGet t.mem b = memGet s.mem b))

/-- R213, R214, R216, R385, R392: a DECODE_STEP with no slot completes at once; one with a slot that has its page takes the slot and, while its ring has
no room, waits for it at the front of its queue; with room it starts: its manifest is written and its engines run. When the engines of a step have
stopped, every row's entry advances by R216, is written back and freed, and the step completes. What goes beyond the spec's words here is the
model's choice: log entries 48, 51. -/
def Obligations.DecodingStep : Prop :=
  ∀ (s : State) (q i k : Nat) (d : List Byte) (x : Slot), Up s → NoneDue s → s.rmt.ops = [] → s.mir.commits = [] → Sound s →
    (∀ y ∈ s.hif.started, y.wait ≠ .journal ∧ y.wait ≠ .writes) →
    let takes : Prop := DescAt s q 0x33 d ∧ s.seqs.steps = [] ∧ Passes s q (decodeCheck s (quGet s q).tab d) ∧ decodeWaits s d = false
    let oneRow : Prop := dsMask d = 2 ^ i ∧ i < 128 ∧ slotGet s i = some x ∧ eState x.bytes = 1 ∧ x.held = none ∧
      ePos x.bytes / 16 < eAlloc x.bytes ∧ eRing x.bytes ≠ dCq d
    (takes → dsMask d = 0 → (∀ z ∈ s.seqs.slots, z.2.bind (fun y => y.held) ≠ some s.hif.nextId) →
      ∃ t, exec (.decodeStep q) s = .next t ∧ descDone s t q d 0 0 ∧ t.seqs.steps = [] ∧ t.mem = s.mem ∧ t.engines = s.engines) ∧
    (takes → oneRow → ringFits s (eRing x.bytes) 1 = false →
      ∃ t, exec (.decodeStep q) s = .next t ∧ slotGet t i = some { x with held := some s.hif.nextId } ∧
        t.seqs.steps = [⟨s.hif.nextId, some (q, (quGet s q).ci), [i], [], 0, false, false, [], []⟩] ∧
        t = { s with hif := { s.hif with nextId := s.hif.nextId + 1 }, seqs := { s.seqs with slots := t.seqs.slots, steps := t.seqs.steps } }) ∧
    (takes → oneRow → ringFits s (eRing x.bytes) 1 = true → hbmOk s (ePt x.bytes + 4 * (ePos x.bytes / 16)) 4 = true →
      ∃ t, exec (.decodeStep q) s = .next t ∧ (quGet t q).ci = (quGet s q).ci + 1 ∧ (quGet t q).got = [] ∧
        (cqGet t (eRing x.bytes)).resv = (cqGet s (eRing x.bytes)).resv + 1 ∧ slotGet t i = some { x with held := some s.hif.nextId } ∧
        t.seqs.steps = [⟨s.hif.nextId, none, [i], [], 0, true, false, [], []⟩] ∧
        t.hif.started = s.hif.started ++ [⟨s.hif.nextId, some q, d, .decode, 0, [], [], BitVec.ofNat 64 (dsEng d), [], []⟩] ∧
        (∀ j < 14400, memGet t.mem (dsMan d + j) = (manifest s [i] (dSeq d)).getD j 0) ∧
        (∀ j, (j < dsMan d ∨ dsMan d + 14400 ≤ j) → memGet t.mem j = memGet s.mem j) ∧
        (∀ e < 64, (dsEng d).testBit e = true → (engGet t e).st = .running ∧ (engGet t e).pc = BitVec.ofNat 14 (dsPc d) ∧
          (engGet t e).owner = some s.hif.nextId ∧ (engGet t e).sreg 1 = BitVec.ofNat 64 (dsMan d) ∧ (engGet t e).sreg 2 = 1 ∧
          (engGet t e).sreg 3 = BitVec.ofNat 64 (dSeq d)) ∧
        (∀ e < 64, (dsEng d).testBit e = false → engGet t e = engGet s e)) ∧
    (∀ z a b tok adv, stGet s k = some z → z.q = some q → z.engLeft = 0 → z.codes = [] → z.wait = .decode → z.engDone = [] →
      s.seqs.steps = [⟨k, none, [i], [], 0, true, false, [], []⟩] → i < 128 → s.rt.repro = false → slotGet s i = some x → x.held = some k →
      x.bytes.length = 128 → a = entryAt s x.entry → b = resultAt z.desc 0 → hbmOk s b 16 = true → hbmOk s a 128 = true →
      a + 128 ≤ 2 ^ 40 → b + 16 ≤ 2 ^ 40 → tok = memNat s b 4 → adv = memNat s (b + 8) 4 → leAt (memRead s.mem b 16) 4 1 % 2 = 0 →
      ∃ t, exec (.decodeEnginesDone k) s = .next t ∧ slotGet t i = some { x with bytes := rowAfter x.bytes tok adv, held := none } ∧
        (∀ j < 128, memGet t.mem (a + j) = (rowAfter x.bytes tok adv).getD j 0) ∧
        (∀ j, (j < a ∨ a + 128 ≤ j) → memGet t.mem j = memGet s.mem j) ∧ t.seqs.steps = [] ∧ (∀ y ∈ t.hif.started, y.id ≠ k) ∧
        t.engines = s.engines)

/-- R33, R235, R237: JRNL_FLUSH sends the records it names on the stream and waits for their acknowledgements; one of LENGTH 0 completes, and another of
a chip in slice 0 completes PROT_DENIED. A record that is not acknowledged in time fails the descriptor and sets JRNL_FAIL. What goes beyond the
spec's words here is the model's choice: log entry 52. -/
def Obligations.JournalFlush : Prop :=
  ∀ (s : State) (q k a n : Nat) (d : List Byte) (c : DCheck), k = s.hif.nextId → a = jfAddr d → n = dLen d →
    c = flushCheck s (quGet s q).tab d →
    (Idle s → DescAt s q 0x35 d → Passes s q c → n = 0 → ∃ t, exec (.jrnlFlush q) s = .next t ∧ descDone s t q d 0 0 ∧
      t = { s with hif := t.hif, out := t.out, msix := t.msix }) ∧
    (Idle s → DescAt s q 0x35 d → Passes s q c → s.rt.slice ≠ 0 → n ≠ 0 → memNat s a 4 = n → hbmOk s a n = true → Sound s →
      ∃ t o, exec (.jrnlFlush q) s = .next (fabricRest t) ∧ (quGet t q).ci = (quGet s q).ci + 1 ∧
        t.hif.started = s.hif.started ++ [⟨k, some q, d, .journal, 0, [], [], 0, [], []⟩] ∧
        t.shf.jout = s.shf.jout ++ [⟨k, BitVec.ofNat 64 (memNat s (a + 16) 8), BitVec.ofNat 32 (memNat s (a + 4) 4)⟩] ∧
        t.rmt.ops = [o] ∧ o.ptype = 7 ∧ o.r = 74 ∧ o.todo = [(0, n, a)] ∧ t = { s with hif := t.hif, shf := t.shf, rmt := t.rmt }) ∧
    (Idle s → DescAt s q 0x35 d → c.form = true → (∀ r ∈ c.ranges, (rangeVerdict s (quGet s q).tab r).1 = 0) → cutCodes s (quGet s q) = [] →
      s.rt.slice = 0 → n ≠ 0 → ∃ t, exec (.jrnlFlush q) s = .next t ∧ descDone s t q d 0x20 0 ∧
        t = { s with hif := t.hif, out := t.out, msix := t.msix }) ∧
    (∀ j x, Up s → s.hif.started = [x] → x.id = j → x.wait = .journal → x.codes = [] → s.rmt.ops = [] → s.mir.commits = [] → s.seqs.steps = [] →
      (∃ r ∈ s.shf.jout, r.owner = j) → ∃ t, exec (.jrnlAckTimeout j) s = .next t ∧ t.hif.started = [] ∧ (evGet t .shf).getLsbD 17 = true ∧
        (∀ r ∈ t.shf.jout, r.owner ≠ j) ∧ t.mem = s.mem ∧ t.engines = s.engines)

/-- R219: the registers of the sequence block: they change only while no slot is bound and no step runs, and MEM_KVP_LOW at any time. What goes beyond
the spec's words here is the model's choice: log entry 53. -/
def Obligations.SequenceRegisters : Prop :=
  ∀ (s : State) (v : W64) (w : W32), FwRuns s →
    (boundSlots s = 0 → s.seqs.steps = [] → fld v 0 12 = 0 → areasOk s { s.seqs with base := BitVec.ofNat 64 (v.toNat % 2 ^ 48) } = true →
      exec (.memSeqRegWrite 0x440000 true v) s = .next { s with seqs := { s.seqs with base := BitVec.ofNat 64 (v.toNat % 2 ^ 48) } }) ∧
    ((boundSlots s ≠ 0 ∨ s.seqs.steps ≠ []) → ∃ t, exec (.memSeqRegWrite 0x440000 true v) s = .next t ∧ t = { s with ev := t.ev } ∧
      (evGet t .seq).getLsbD 0 = true) ∧
    (w.toNat ≤ s.seqs.top.toNat → exec (.kvpLowWrite w) s = .next { s with seqs := { s.seqs with low := w } }) ∧
    (s.seqs.low.toNat ≤ s.seqs.top.toNat → s.seqs.top.toNat < w.toNat → ∃ t, exec (.kvpLowWrite w) s = .next t ∧
      t.seqs = { s.seqs with low := w } ∧ (evGet t .seq).getLsbD 1 = true ∧ t.mem = s.mem)

/-- R314, R349, R355: a remote descriptor with a LENGTH starts one operation of its kind on its target for its whole range; the target is a chip, or the
chip that the rank table names for a rank. One of LENGTH 0 completes at once; outside a slice another completes PROT_DENIED. What goes beyond the
spec's words here is the model's choice: log entries 84, 91. -/
def Obligations.RemoteDescriptors : Prop :=
  ∀ (s : State) (q k n dst : Nat) (d : List Byte) (tab : QTab), Idle s → tab = (quGet s q).tab → k = s.hif.nextId → n = dLen d →
    let starts (c : Instr) (ptype : Nat) (mc : Bool) (dst : Nat) (todo : List (Nat × Nat × Nat)) : Prop :=
      ∃ t o, exec c s = .next (fabricRest t) ∧ (quGet t q).ci = (quGet s q).ci + 1 ∧ t.rmt.ops = [o] ∧ o.owner = .desc k ∧ o.ptype = ptype ∧
        o.mcast = mc ∧ o.dst.toNat = dst ∧ o.todo = todo ∧ o.codes = [] ∧ o.r = 69 ∧
        t.hif.started = s.hif.started ++ [⟨k, some q, d, .remote, 0, [], [], 0, [], []⟩] ∧ t = { s with hif := t.hif, rmt := t.rmt }
    let target : Prop := if dNat d 46 2 % 2 = 0 then dst = dNat d 38 2 else
      dNat d 38 2 < s.rt.rankCount.toNat ∧ ∃ v : W32, tblGet (fun _ => 0) s.rt.ranks (dNat d 38 2) = v.toNat + 1 ∧ v.getLsbD 16 = true ∧
        fld v 17 15 = 0 ∧ fld v 12 4 < 12 ∧ dst = fld v 0 16
    (s.rt.slice ≠ 0 → DescAt s q 0x50 d → Passes s q (rmtCheck false s tab d) → n ≠ 0 → target →
      starts (.rmtWrite q) 1 false dst [(dNat d 32 6, n, dNat d 40 6)]) ∧
    (s.rt.slice ≠ 0 → DescAt s q 0x51 d → Passes s q (rmtCheck true s tab d) → n ≠ 0 → target →
      starts (.rmtRead q) 0 false dst [(dNat d 32 6, n, dNat d 40 6)]) ∧
    (s.rt.slice ≠ 0 → DescAt s q 0x52 d → Passes s q (atomCheck s tab d) → (rmtAop d = 3 → s.rt.repro = false) → target →
      starts (.rmtAtomic q) 2 false dst [(dNat d 32 6, if rmtAop d = 1 ∨ rmtAop d = 3 then 4 else 8, dNat d 40 6)]) ∧
    (s.rt.slice ≠ 0 → DescAt s q 0x42 d → Passes s q (mcCheck s tab d) → n ≠ 0 →
      starts (.mcWrite q) 1 true (dNat d 32 2) [(dNat d 48 6, n, dNat d 40 6)]) ∧
    (∀ op c chk, ((op, c) = (0x50, .rmtWrite q) ∧ chk = rmtCheck false s tab d) ∨ ((op, c) = (0x51, .rmtRead q) ∧ chk = rmtCheck true s tab d) ∨
        ((op, c) = (0x42, .mcWrite q) ∧ chk = mcCheck s tab d) → DescAt s q op d → Passes s q chk →
      (n = 0 → ∃ t, exec c s = .next t ∧ descDone s t q d 0 0 ∧ t = { s with hif := t.hif, out := t.out, msix := t.msix }) ∧
      (s.rt.slice = 0 → n ≠ 0 → c = .rmtWrite q → ∃ t, exec c s = .next t ∧ descDone s t q d 0x20 0 ∧ t.mem = s.mem ∧ t.rmt.ops = []))

/-- R343 to R346: CKT_SETUP takes the lowest FREE entry, CKT_TEARDOWN frees it, and an armed circuit becomes ACTIVE at its beat if both its ends are up,
and otherwise BROKEN; what R58 puts before an activation at the same beat comes first. R53: in HOLDOVER the chip refuses new circuits after 4,096
beats and releases every circuit after 16,384. What goes beyond the spec's words here is the model's choice: log entry 83. -/
def Obligations.CircuitControl : Prop :=
  (∀ (s : State) (q n : Nat) (d : List Byte) (tab : QTab), Idle s → tab = (quGet s q).tab → n < 256 →
    (DescAt s q 0x40 d → Passes s q (setupCheck s tab d) → (cktGet s n).st = 0 → (∀ m < n, (cktGet s m).st ≠ 0) →
      ∃ t, exec (.cktSetup q) s = .next t ∧ descDone s t q d 0 0 ∧ cktGet t n = cktNew d ∧ (∀ m, m ≠ n → cktGet t m = cktGet s m) ∧
        t = { s with hif := t.hif, out := t.out, msix := t.msix, ckt := { s.ckt with ents := t.ckt.ents } }) ∧
    (DescAt s q 0x41 d → Passes s q (teardownCheck s tab d) → cktOf s (dNat d 32 2) = some n →
      (∀ x ∈ (vcGet s (cktGet s n).inp.toNat 7).arr, (cktGet s n).carries x = false) →
      (∀ x ∈ (vcGet s (cktGet s n).out.toNat 7).fwd ++ (vcGet s (cktGet s n).out.toNat 7).loc, (cktGet s n).carries x.2 = false) →
      (∀ x ∈ (vcGet s (cktGet s n).out.toNat 7).curPkt, (cktGet s n).carries x.2.2 = false) →
      (∀ x ∈ (portGet s (cktGet s n).out.toNat).inj ++ (portGet s (cktGet s n).out.toNat).stall, (cktGet s n).carries x.pkt = false) →
      ∃ t, exec (.cktTeardown q) s = .next t ∧ descDone s t q d 0 0 ∧ cktGet t n = Ckt.free ∧ (∀ m, m ≠ n → cktGet t m = cktGet s m) ∧
        t.mem = s.mem ∧ t.ckt.drop = s.ckt.drop) ∧
    ((cktGet s n).st = 1 → (cktGet s n).act.toNat ≤ s.beat.now.toNat → cutDue s = false → hintDue s = false → switchDue s = false →
      endUp s (cktGet s n).inp = true → endUp s (cktGet s n).out = true →
      ∃ t, exec (.circuitActivation n) s = .next t ∧ cktGet t n = { cktGet s n with st := 2 } ∧ (evGet t .ckt).getLsbD 0 = true ∧
        (∀ m, m ≠ n → cktGet t m = cktGet s m) ∧ t.mem = s.mem) ∧
    ((cktGet s n).st = 1 → (cktGet s n).act.toNat ≤ s.beat.now.toNat → cutDue s = false → hintDue s = false → switchDue s = false →
      (endUp s (cktGet s n).inp = false ∨ endUp s (cktGet s n).out = false) →
      ∃ t, exec (.circuitActivation n) s = .next t ∧ cktGet t n = { cktGet s n with st := 3 } ∧ (evGet t .ckt).getLsbD 1 = true) ∧
    (s.beat.now.toNat < (cktGet s n).act.toNat ∨ cutDue s = true ∨ hintDue s = true ∨ switchDue s = true → exec (.circuitActivation n) s = .next s)) ∧
  (∀ (s : State), Idle s → s.beat.st = .holdover →
    (4096 ≤ s.beat.holdLen.toNat → ∃ t, exec .circuitRefuse s = .next t ∧ (evGet t .beat).getLsbD 1 = true ∧ beatRefuses t = true ∧
      t.beat = s.beat ∧ t.ckt = s.ckt ∧ t.mem = s.mem) ∧
    (s.beat.holdLen.toNat < 4096 → exec .circuitRefuse s = .next s) ∧
    (16384 ≤ s.beat.holdLen.toNat → ∃ t, exec .circuitRelease s = .next t ∧ (evGet t .beat).getLsbD 2 = true ∧
      (∀ n < 256, (cktGet t n).st = 0) ∧ t.mem = s.mem) ∧
    (s.beat.holdLen.toNat < 16384 → exec .circuitRelease s = .next s))

/-- R481, R482: CAL_WRITE of LENGTH 0 completes, and one from host memory starts and waits for its source; a source that is no good image completes
DESC_MALFORMED. When the programming ends well the store holds the image; otherwise it stays invalid. What goes beyond the spec's words here is the
model's choice: log entries 15, 122. -/
def Obligations.CalibrationWrites : Prop :=
  ∀ (s : State) (q k : Nat) (d bs : List Byte) (x : Started), Idle s →
    (DescAt s q 0x60 d → Passes s q (calCheck s (quGet s q).tab d) → dLen d = 0 → ∃ t, exec (.calWrite q) s = .next t ∧ descDone s t q d 0 0 ∧
      t = { s with hif := t.hif, out := t.out, msix := t.msix }) ∧
    (DescAt s q 0x60 d → Passes s q (calCheck s (quGet s q).tab d) → calWaits s d = false → dLen d ≠ 0 → cwHost d = true →
      ∃ t, exec (.calWrite q) s = .next t ∧ (quGet t q).ci = (quGet s q).ci + 1 ∧
        t.hif.started = s.hif.started ++ [⟨s.hif.nextId, some q, d, .hostRead, 0, [], [], 0, [], []⟩] ∧ t = { s with hif := t.hif }) ∧
    (∀ hv, stGet s k = some x → x.wait = .hostRead → dOp x.desc = 0x60 → hv.fail = .none →
      calImageOk (hostBytes hv (dNat x.desc 32 8) (dLen x.desc)) = false → ∃ t, exec (.hostReadReturn k hv) s = .next t ∧
        (∀ y ∈ t.hif.started, y.id ≠ k) ∧ t.flash = s.flash ∧ t.mem = s.mem) ∧
    (s.flash.writing = some (k, bs) → bs.length ≤ 0x03B00000 →
      (∃ t, exec (.calWriteDone true) s = .next t ∧ t.flash.writing = none ∧ t.flash.bad = false ∧
        (∀ i < bs.length, tblGet Config.flashByte t.flash.cells (0x400000 + i) = bs.getD i 0) ∧ (∀ y ∈ t.hif.started, y.id ≠ k) ∧
        (evGet t .cal).getLsbD 2 = true) ∧
      ∃ t, exec (.calWriteDone false) s = .next t ∧ t.flash = { s.flash with writing := none } ∧ (evGet t .cal).getLsbD 3 = true ∧
        ∀ y ∈ t.hif.started, y.id ≠ k)

/-- R45, R48, R52, R54: a boundary adds 1 to BEAT_NOW. MASTER set in UNSYNCED starts the count at BEAT_START, in another state keeps it; MASTER cleared
enters HOLDOVER with the count kept; RESYNC steps the count, and a lease keeps what it had left. R47, R48, R52, R56: ACQUIRING ends LOCKED within 5
ns and UNSYNCED where 64 beats have not brought it there; a silent upstream is left for the best other one, or this chip's markers become invalid;
64 beats without a valid marker enter HOLDOVER; the timescale of IEEE 1588 is followed by a master. What goes beyond the spec's words here is the
model's choice: log entries 73, 74, 75, 76, 77, 145, 157, 159, 160. -/
def Obligations.BeatControl : Prop :=
  (∀ (s : State) (clocks : List Nat) (v : W32), Up s →
    (∃ t, exec (.beatBoundary clocks) s = .next t ∧ t.beat.now = s.beat.now + 1 ∧ t.beat.seen = false ∧
      t.beat.unseen = (if s.beat.seen then 0 else s.beat.unseen + 1) ∧ (∀ p, pbGet t p = portTick (pbGet s p)) ∧
      t.rt = { s.rt with drainLeft := s.rt.drainLeft - 1 } ∧ t.pwr.own = BitVec.ofNat 4 (paceOf (clocks.foldl min 1750000)) ∧
      t = { s with beat := t.beat, rt := t.rt, pwr := t.pwr }) ∧
    (fwUp s = true → fld v 1 3 < 7 → NothingArmed s →
      (v.getLsbD 12 = false → s.beat.st = .unsynced → ∃ t, exec (.beatMasterSet v) s = .next t ∧ t.beat.st = .master ∧
        t.beat.now = s.beat.start ∧ t.beat.period = BitVec.ofNat 3 (fld v 1 3) ∧ t.beat.hops = 0 ∧
        (s.lease.st = 1 → t.lease.expiry - t.beat.now = s.lease.expiry - s.beat.now) ∧
        t = { s with beat := t.beat, lease := t.lease, shf := t.shf, pwr := t.pwr }) ∧
      (v.getLsbD 12 = false → s.beat.st ≠ .unsynced → s.beat.st ≠ .master → exec (.beatMasterSet v) s =
        .next { s with beat := { s.beat with
          ctrlMaster := true, ctrlPeriod := BitVec.ofNat 3 (fld v 1 3), ptpEn := v.getLsbD 4,
          ptpLocked := s.beat.ptpLocked && v.getLsbD 4, upFixed := v.getLsbD 5, upPort := BitVec.ofNat 6 (fld v 6 6), st := .master, hops := 0 } }) ∧
      (v.getLsbD 12 = false → s.beat.st = .master → ∃ t, exec (.beatMasterClear v) s = .next t ∧ t.beat.st = .holdover ∧
        t.beat.now = s.beat.now ∧ t.beat.holdLen = 0 ∧ t.beat.hops = 15 ∧ Raised { s with beat := t.beat } t .beat 0) ∧
      (v.getLsbD 0 = true → s.beat.st = .master → ∃ t, exec (.beatResync v) s = .next t ∧ t.beat.st = .master ∧ t.beat.now = s.beat.start ∧
        (s.lease.st = 1 → t.lease.expiry - t.beat.now = s.lease.expiry - s.beat.now) ∧
        t = { s with beat := t.beat, lease := t.lease, shf := t.shf, pwr := t.pwr }) ∧
      (∀ n ph per h, v.getLsbD 0 = false → v.getLsbD 5 = true → s.beat.st = .locked → s.beat.upstream.toNat = fld v 6 6 →
        upTime s (fld v 6 6) = some (n, ph, per) → offered s (fld v 6 6) = some h → ∃ t, exec (.beatResync v) s = .next t ∧
        t.beat.st = .locked ∧ t.beat.now = n ∧ t.beat.phase = BitVec.ofNat 16 ph ∧ t.beat.period = per ∧ t.beat.hops = BitVec.ofNat 4 (h + 1) ∧ (s.lease.st = 1 → t.lease.expiry - n = s.lease.expiry - s.beat.now) ∧
        t = { s with beat := t.beat, lease := t.lease, shf := t.shf, pwr := t.pwr }))) ∧
  (∀ (s : State) (off : Int) (ph : W16) (x : W64) (l : Bool), Up s → off = s.beat.offset.toInt →
    (s.beat.st = .acquiring → off.natAbs ≤ 12 → ∃ t, exec (.acquireEnd ph) s = .next t ∧ t.beat.st = .locked ∧
      t.beat.now = s.beat.now ∧ t.beat.phase = ph ∧ t = { s with beat := t.beat } ∧
      ∀ h, s.beat.upValid = true → offered s s.beat.upstream.toNat = some h → t.beat.hops = BitVec.ofNat 4 (h + 1)) ∧
    (s.beat.st = .acquiring → 12 < off.natAbs → 64 ≤ s.beat.acqLen → ∃ t, exec (.acquireEnd ph) s = .next t ∧ t.beat.st = .unsynced ∧
      t.beat.hops = 15 ∧ t.beat.now = s.beat.now ∧ Told { s with beat := t.beat } t) ∧
    (s.beat.st ≠ .acquiring ∨ (12 < off.natAbs ∧ s.beat.acqLen < 64) → exec (.acquireEnd ph) s = .next s) ∧
    (s.beat.st = .locked → offered s s.beat.upstream.toNat = none →
      (bestUpstream s = none → exec .upstreamTimeout s = .next { s with beat := { s.beat with upValid := false, hops := 15 } }) ∧
      (∀ q h, bestUpstream s = some q → offered s q = some h → ∃ t, exec .upstreamTimeout s = .next t ∧
        t.beat = { s.beat with upstream := BitVec.ofNat 6 q, upValid := true, hops := BitVec.ofNat 4 (h + 1) } ∧
        Raised { s with beat := t.beat } t .beat 5)) ∧
    (s.beat.st = .locked → 64 ≤ s.beat.unseen → ∃ t, exec .holdoverEnter s = .next t ∧
      t.beat = { s.beat with st := .holdover, holdLen := 0, ptpLocked := false, hops := 15 } ∧ Raised { s with beat := t.beat } t .beat 0) ∧
    (s.beat.st = .locked → s.beat.unseen < 64 → exec .holdoverEnter s = .next s) ∧
    (s.beat.st = .master → s.beat.ptpEn = true → exec (.ptpSyncRx ⟨x, l⟩) s = .next { s with beat := { s.beat with
        ptpLocked := l
        ptpErr := s.beat.epochPtp + s.beat.now * BitVec.ofNat 64 (256 * 2 ^ s.beat.period.toNat) + BitVec.ofNat 64 (s.beat.phase.toNat * 2 / 5) - x } } ∧
      ∃ t, exec .ptpLoss s = .next t ∧ t.beat = { s.beat with ptpLocked := false } ∧ Raised { s with beat := t.beat } t .beat 6))

/-- R316, R324, R330: a routing bank is armed only when it passes its check and no drain is under way; at its beat the banks change places and the drain
counts, and while it counts ARM is refused; packets that wait to be injected are routed by the new bank (R323); DISARM takes the arming back. Each
occupancy sample adds to the sums of the congestion map. R202, R203, R314, R331, R336, R368, R514: the registers that say what the chip is and whom
it talks to change only outside a slice, the slice is set only under a lease, and a region entry in use keeps its range. What goes beyond the spec's
words here is the model's choice: log entries 77, 150. -/
def Obligations.RoutingControl : Prop :=
  (∀ (s : State), Idle s →
    (fwUp s = true → s.rt.draining = false → drainLong s = true → bankOk s (bankOfEpoch s (!s.rt.cur)) = true →
      s.beat.now.toNat < s.rt.swBeat.toNat → exec .arm s = .next { s with rt := { s.rt with armed := true, armAt := s.rt.swBeat } }) ∧
    (fwUp s = true → s.rt.draining = true → ∃ t, exec .arm s = .next t ∧ Raised s t .rt 0) ∧
    (fwUp s = true → bankOk s (bankOfEpoch s (!s.rt.cur)) = false → ∃ t, exec .arm s = .next t ∧ Raised s t .rt 0) ∧
    (fwUp s = true → exec .disarm s = .next { s with rt := { s.rt with armed := false } }) ∧
    (s.rt.armed = true → s.rt.armAt.toNat ≤ s.beat.now.toNat → cutDue s = false → hintDue s = false → ∃ t, exec .routeBankSwitch s = .next t ∧
      t.rt.cur = (!s.rt.cur) ∧ t.rt.armed = false ∧ t.rt.draining = true ∧ t.rt.drainLeft = s.rt.drain.toNat ∧
      (∀ p < portsOf s, ∀ i ∈ (portGet t p).inj ++ (portGet t p).stall, i.pkt.epoch = !s.rt.cur) ∧
      ((∀ p < portsOf s, (portGet s p).inj = [] ∧ (portGet s p).stall = []) → (∀ p, portGet t p = portGet s p) ∧
        Raised { s with rt := { s.rt with cur := !s.rt.cur, armed := false, draining := true, drainLeft := s.rt.drain.toNat }, link := t.link }
          t .rt 1)) ∧
    (s.rt.armed = false ∨ cutDue s = true ∨ hintDue s = true → exec .routeBankSwitch s = .next s) ∧
    (s.rt.draining = true → s.rt.drainLeft = 0 → ∃ t, exec .drainDone s = .next t ∧ t.rt = { s.rt with draining := false } ∧
      Raised { s with rt := t.rt } t .rt 2) ∧
    (∃ t, exec .cmapSample s = .next t ∧ t = { s with rt := { s.rt with occ := t.rt.occ, samples := s.rt.samples + 1 } } ∧
      ∀ p < portsOf s, ∀ v < 8, tblGet (fun _ => 0) t.rt.occ (8 * p + v) = tblGet (fun _ => 0) s.rt.occ (8 * p + v) + occupancy s p v)) ∧
  (∀ (s : State) (v : W32) (x : W64) (n w : Nat), FwRuns s →
    (exec (.rankInv v) s = .next { s with rt := { s.rt with
      ranks := if v.getLsbD 31 then [] else s.rt.ranks.filter (fun e => e.1 != v.toNat % 65536) } }) ∧
    (exec (.mcInv v) s = .next { s with rt := { s.rt with
      groups := if v.getLsbD 31 then [] else s.rt.groups.filter (fun e => e.1 != v.toNat % 4096) } }) ∧
    (s.rt.slice = 0 → x.toNat % 64 = 0 → exec (.rankTableWrite 0x90030 true x) s =
      .next { s with rt := { s.rt with rankBase := BitVec.ofNat 64 (x.toNat % 2 ^ 48), ranks := [] } }) ∧
    (s.rt.slice = 0 → x.toNat % 2 ^ 17 ≤ 65536 → exec (.rankTableWrite 0x90038 false x) s =
      .next { s with rt := { s.rt with rankCount := BitVec.ofNat 32 (x.toNat % 2 ^ 17), ranks := [] } }) ∧
    (s.rt.slice = 0 → v.toNat / 4096 % 16 < 12 → exec (.fabChipNumWrite v) s = .next { s with rt := { s.rt with chip := v.setWidth 16 } }) ∧
    (s.rt.slice = 0 → exec (.fabSeedSliceWrite v) s = .next { s with rt := { s.rt with seedSlice := v.setWidth 12 } }) ∧
    (s.rt.slice ≠ 0 → ∀ c, (c = .rankTableWrite 0x90030 true x ∨ c = .rankTableWrite 0x90038 false x ∨ c = .fabChipNumWrite v ∨
      c = .fabSeedSliceWrite v) → ∃ t, exec c s = .next t ∧ Raised s t .rt 0) ∧
    (∀ c : BitVec 12, c = v.setWidth 12 →
      (s.rt.slice = 0 → c ≠ 0 → s.lease.st = 1 → exec (.fabSliceWrite v) s =
        .next { s with rt := { s.rt with slice := c, repro := v.getLsbD 12 } }) ∧
      (s.rt.slice = 0 → c ≠ 0 → s.lease.st ≠ 1 → ∃ t, exec (.fabSliceWrite v) s = .next t ∧ Raised s t .rt 0) ∧
      (s.rt.slice ≠ 0 → c = 0 → exec (.fabSliceWrite v) s = .next { s with rt := { s.rt with slice := 0, repro := v.getLsbD 12 } }) ∧
      (s.rt.slice ≠ 0 → c ≠ 0 → c ≠ s.rt.slice → ∃ t, exec (.fabSliceWrite v) s = .next t ∧ Raised s t .rt 0)) ∧
    (∀ old new, n < 64 → w < 4 → old = rgnGet s n → new = setFld old (64 * w) 64 x.toNat &&& rgnMask →
      (old.getLsbD 0 = false → new.getLsbD 0 = true → rgnFits s new = true → ∃ t, exec (.fabRgnWrite n w x) s = .next t ∧ rgnGet t n = new ∧
        (∀ k, k ≠ n → rgnGet t k = rgnGet s k) ∧ t = { s with rmt := { s.rmt with rgn := t.rmt.rgn } }) ∧
      (old.getLsbD 0 = true → rgnSame old new = false → ∃ t, exec (.fabRgnWrite n w x) s = .next t ∧ Raised s t .rmt 3) ∧
      (old.getLsbD 0 = false → new.getLsbD 0 = true → rgnFits s new = false → ∃ t, exec (.fabRgnWrite n w x) s = .next t ∧ Raised s t .rmt 3)))

/-- R298, R304, R338, R18: a lane of a port that is not DOWN sends one flit a flit time; in UP it sends again what a NAK has left to send, where the
slot allows it, else data in its turn, else an idle flit that carries the next number. With its switch in bypass the flit goes to the other port of
the switch. R298 to R300, R303, R410: a good flit is accepted when it carries the number expected and otherwise dropped, its acknowledgement frees
the retry buffer and its credits add up to the room of the channel; a flit that fails its CRC asks for a resend, and again when the timer runs out;
a port goes DOWN on silence, on a stall in either direction and by RETRAIN, and a port whose peer has fallen silent is told. What goes beyond the
spec's words here is the model's choice: log entries 62, 78, 80, 146, 158. -/
def Obligations.LinkFlits : Prop :=
  (∀ (s : State) (p l age : Nat) (phase : W16) (stamp : W64) (la : Lane) (c : Instr) (b : State), Idle s → p < portsOf s →
    (optGet s p).txLane.contains l = true → la = (portGet s p).lane l → c = .flitTx p l ⟨phase, age, stamp⟩ →
    b = { s with beat := { s.beat with phase := phase } } →
    ((portGet s p).st = .down → exec c s = .next s) ∧
    ((portGet s p).st ≠ .down → bypassed s p = false → ∃ t o g, exec c s = .next t ∧ t.out = o ++ [.flit p l (flitImage g)] ∧
      (portGet t p).st = (portGet s p).st ∧ t.mem = s.mem ∧ t.engines = s.engines ∧ t.hif = s.hif) ∧
    ((portGet s p).st ≠ .down → bypassed s p = true → ∃ t g, exec c s = .next t ∧ (portGet t (partnerPort p)).loopIn =
      (portGet s (partnerPort p)).loopIn ++ [((optGet s p).txMap.getD ((optGet s p).txLane.idxOf l) 0, g)]) ∧
    (bypassed s p = false → (portGet s p).st = .up → ∃ t, exec c s = .next t ∧
      (∀ f r, la.resend = f :: r → mayResend s p phase f = true → ∃ g, t.out = s.out ++ [.flit p l (flitImage g)] ∧
        g.seqn = f.1.seqn ∧ g.kind = f.1.kind ∧ g.vc = f.1.vc ∧ g.sop = f.1.sop ∧ g.payload = f.1.payload ∧
        ((portGet t p).lane l).resend = r ∧ ((portGet t p).lane l).unack = la.unack ∧
        fld (portGet t p).retry 0 16 = min 65535 (fld (portGet s p).retry 0 16 + 1)) ∧
      ((∀ f r, la.resend = f :: r → mayResend s p phase f = false) →
        (la.resend = [] → (optGet s p).txLane.getD (portGet s p).rot 0 ≠ l ∨ 512 ≤ la.unack.length) → ∃ g,
        t.out = s.out ++ [.flit p l (flitImage g)] ∧ g.kind = 0 ∧ g.seqn = la.txSeq ∧ ((portGet t p).lane l).txSeq = la.txSeq ∧
        ((portGet t p).lane l).unack = la.unack ∧ ((portGet t p).lane l).resend = la.resend) ∧
      (∀ d no k u, la.resend = [] → (optGet s p).txLane.getD (portGet s p).rot 0 = l → la.unack.length < 512 →
        pickFlit b p phase age = (some (d, no, k), u) → ∃ g, t.out = u.out ++ [.flit p l (flitImage g)] ∧ g.seqn = la.txSeq ∧ g.kind = d.kind ∧
        g.vc = d.vc ∧ g.sop = d.sop ∧ g.payload = d.payload ∧ ((portGet t p).lane l).txSeq = la.txSeq + 1 ∧
        ((portGet t p).lane l).unack = la.unack ++ [({ d with seqn := la.txSeq }, no, k)]))) ∧
  (∀ (s : State) (p l : Nat) (f : Flit) (crc : W32) (phase : W16) (x : Port) (la : Lane), Idle s → p < portsOf s → x = portGet s p → la = x.lane l →
    (x.st = .up → (optGet s p).rxLane.contains l = true → bypassed s p = false →
      ((optGet s p).fec = false → crc ≠ flitCrc f → exec (.flitRx p l f ⟨crc, [], phase⟩) s =
        .next (portPut { s with beat := { s.beat with phase := phase } } p (x.setLane l (dropFlit la)))) ∧
      (f.mtype = 0 → f.kind = 1 → ∃ t, exec (.flitRx p l f ⟨flitCrc f, [], phase⟩) s = .next t ∧
        ((portGet t p).lane l).rxExp = (if f.seqn = la.rxExp then la.rxExp + 1 else la.rxExp) ∧
        (f.seqn ≠ la.rxExp → ((portGet t p).lane l).nakDue = (la.nakDue || !la.nakSent)) ∧ (portGet t p).st = .up ∧ t.mem = s.mem) ∧
      (∀ a v, (optGet s p).rxLane.head? ≠ some l → f.mtype = 0 → f.kind = 0 → f.seqn = la.rxExp → a = f.ackLane.toNat →
        v = f.crVc.toNat → ∃ t, exec (.flitRx p l f ⟨flitCrc f, [], phase⟩) s = .next t ∧
        (portGet t p).lane a = ackLane (x.lane a) f.ack f.nak ∧
        (vcGet t p v).cred = min (vcRoom v) ((vcGet s p v).cred + f.crCount.toNat) ∧ t.mem = s.mem ∧ t.rmt = s.rmt) ∧
      (∀ cws, (optGet s p).fec = true → cws.any (fun c => uncorrectable c.1) = true → ∃ t, exec (.flitRx p l f ⟨crc, cws, phase⟩) s = .next t ∧
        (portGet t p).lane l = dropFlit la ∧
        fld (portGet t p).retry 16 16 = min 65535 (fld x.retry 16 16 + (cws.filter (fun c => uncorrectable c.1 && c.2)).length))) ∧
    (x.st = .up → la.nakSent = true → exec (.nakTimer p l) s = .next (portPut s p (x.setLane l { la with nakDue := true }))) ∧
    (∀ c, (c = .linkSilenceTimeout p ∨ (c = .linkStallTimeout p ∧ x.lanes.any (fun y => y.2.outstanding) = true) ∨ (c = .retrain p ∧ fwUp s = true)) →
      x.st = .up → (optGet s p).test = none → PortPassing s p → s.shf.jout = [] → (∀ n < 256, (cktGet s n).st ≠ 2) → ringsLocked s p = false →
      ∃ t, exec c s = .next t ∧ portGet t p = x.cleared ∧ (∀ k, k ≠ p → portGet t k = portGet s k) ∧
        t.link.drops = satAdd s.link.drops (x.sending.length + x.queued.length + x.received.length) ∧
        pbGet t p = PortBeat.init ∧ Raised { s with link := t.link, beat := t.beat } t .link 1) ∧
    (x.lanes.any (fun y => y.2.outstanding) = false → exec (.linkStallTimeout p) s = .next s) ∧
    (x.st = .train → exec (.linkSilenceTimeout p) s = .next s) ∧
    (x.st = .up → s.beat.st = .locked → (pbGet s p).marker ≠ none → 64 ≤ (pbGet s p).silent → ∃ t, exec (.peerSilent p) s = .next t ∧
      Raised s t .mgt 5) ∧
    (x.st = .up → (pbGet s p).silent < 64 → exec (.peerSilent p) s = .next s))

/-- R305, R306: training ends in IDENT or DOWN; the identity of the neighbour leads to SELF, to UP where it is the one recorded (or the port is a
reserved one) and the port is not on hold, to HOLD where it is on hold, and else to HOLD with a new generation, until it is released by that
generation; HOLD holds an UP port. What goes beyond the spec's words here is the model's choice: log entry 79. -/
def Obligations.LinkTraining : Prop :=
  ∀ (s : State) (p gen : Nat) (lanes : List Nat) (delay : W16) (x : Port) (o : OptPort), Idle s → x = portGet s p → o = optGet s p →
    (PortIn s p .train → (∀ i < o.rxMap.length, lanes.getD i (o.rxLane.getD i i) = o.rxLane.getD i i) →
      exec (.trainEnd p lanes delay true) s =
        .next (portPut { optPut s p { o with again := false } with beat := { s.beat with delay := tblSet (fun _ => 0) s.beat.delay p delay } } p
          { x with st := .ident, parts := [], txLanes := BitVec.ofNat 4 o.txMap.length, rxLanes := BitVec.ofNat 4 o.rxMap.length }) ∧
      (ringsLocked s p = false → ∃ t, exec (.trainEnd p lanes delay false) s = .next t ∧ portGet t p = { x with st := .down } ∧
        pbGet t p = PortBeat.init ∧ t = { s with link := t.link, beat := { s.beat with ports := t.beat.ports } })) ∧
    (∀ id, PortIn s p .ident → peerFrom x.parts = some id →
      (id.serial = Config.serial → exec (.identEnd p) s = .next (portPut s p { x with st := .self })) ∧
      (id.serial ≠ Config.serial → (reservedPort s p = true ∨ x.peer = some id) →
        (x.onHold = true → exec (.identEnd p) s = .next (portPut s p { x with st := .hold })) ∧
        (x.onHold = false → o.test ≠ none → exec (.identEnd p) s = .next (portPut s p { x with st := .down })) ∧
        (x.onHold = false → o.test = none → ∃ t, exec (.identEnd p) s = .next t ∧ portGet t p = { x with st := .up } ∧
          Raised { s with link := t.link } t .link 2)) ∧
      (id.serial ≠ Config.serial → reservedPort s p = false → x.peer ≠ some id → ∃ t, exec (.identEnd p) s = .next t ∧
        portGet t p = { x with st := .hold, peer := some id, gen := x.gen + 1, passed := false, testFresh := false, onHold := true } ∧
        Raised { s with link := t.link } t .link 0)) ∧
    (PortIn s p .ident → peerFrom x.parts = none → exec (.identEnd p) s = .next s) ∧
    (fwUp s = true → PortIn s p .hold → x.passed = true → gen = x.gen.toNat → ∃ t, exec (.release p gen) s = .next t ∧
      portGet t p = { x with st := .up, onHold := false } ∧ Raised { s with link := t.link } t .link 2) ∧
    (fwUp s = true → p < portsOf s → (x.st ≠ .hold ∨ gen ≠ x.gen.toNat ∨ x.passed = false) → ∃ t, exec (.release p gen) s = .next t ∧
      Raised s t .link 3) ∧
    (fwUp s = true → PortIn s p .up → (∀ n < 256, (cktGet s n).st ≠ 2) →
      exec (.hold p) s = .next (portPut s p { x with st := .hold, onHold := true })) ∧
    (fwUp s = true → p < portsOf s → x.st ≠ .up →
      exec (.hold p) s = .next (if o.test.isSome then portPut s p { x with onHold := true } else s)) ∧
    (fwUp s = true → portsOf s ≤ p → ∀ c, (c = .release p gen ∨ c = .hold p ∨ c = .retrain p) → ∃ t, exec c s = .next t ∧ Raised s t .link 6)

/-- R303, R317, R320, R321, R326, R341, R342: a packet for another chip that may go on enters the output queue of the port that routing picks, one on a
circuit that of its OUT port on VC7; one that has no route, is too old or may not be forwarded is dropped and counted. Its buffer is free either
way. What goes beyond the spec's words here is the model's choice: log entries 82, 140, 142, 148. -/
def Obligations.PacketsForwarded : Prop :=
  ∀ (s : State) (p v : Nat) (k : Packet), Idle s → portUp s p = true → reservedPort s p = false →
    (arrivedIn s p v k = true → v ≠ 7 → k.ptype ≠ 7 → k.ptype ≠ 8 → fenced s k.src = false → (k.mcast = true ∨ k.dst ≠ s.rt.chip) →
      ∃ t, exec (.packetForward p v k) s = .next t ∧ (vcGet t p v).arr = (vcGet s p v).arr.erase k ∧
      (k.mcast = false → k.age.toNat < s.rt.ageLim.toNat → mayForward s k = true → ∀ m vc q twice port, routeOf s (some p) k = .send m vc q twice →
        port = pickPort s m vc q → m.getLsbD port = true ∧ portUp s port = true ∧
          (vcGet t port vc).fwd = (vcGet s port vc).fwd ++ [(p, q)] ∧ (vcGet t p v).owed = (vcGet s p v).owed + packetFlits k ∧
          (twice = false → t = { s with link := t.link }) ∧ (twice = true → Raised { s with link := t.link } t .rt 7)) ∧
      (k.mcast = false → k.age.toNat < s.rt.ageLim.toNat → mayForward s k = true → ∀ named twice, routeOf s (some p) k = .drop named twice →
        t.rt = { s.rt with routeDrop := satInc s.rt.routeDrop } ∧ Raised { s with link := t.link, rt := t.rt } t .rt 5 ∧
          (twice = true → (evGet t .rt).getLsbD 7 = true)) ∧
      (s.rt.ageLim.toNat ≤ k.age.toNat →
        t.rt = { s.rt with ageDrop := satInc s.rt.ageDrop } ∧ Raised { s with link := t.link, rt := t.rt } t .rt 3) ∧
      (k.mcast = false → k.age.toNat < s.rt.ageLim.toNat → mayForward s k = false →
        t.rt = { s.rt with sliceDrop := satInc s.rt.sliceDrop } ∧ Raised { s with link := t.link, rt := t.rt } t .rt 4) ∧
      (k.mcast = true → k.age.toNat < s.rt.ageLim.toNat → (k.ptype ≠ 1 ∨ fld k.dst 12 4 ≠ 0) →
        t.rt = { s.rt with routeDrop := satInc s.rt.routeDrop } ∧ Raised { s with link := t.link, rt := t.rt } t .rt 5)) ∧
    (arrivedIn s p v k = true → v ≠ 7 → (k.ptype = 7 ∨ k.ptype = 8) → ∃ t, exec (.packetForward p v k) s = .next t ∧
      (vcGet t p v).arr = (vcGet s p v).arr.erase k ∧ t.rt = { s.rt with routeDrop := satInc s.rt.routeDrop } ∧
      Raised { s with link := t.link, rt := t.rt } t .rt 5) ∧
    (arrivedIn s p 7 k = true →
      (∀ n o, cktFind s p k.slice k.src k.dst = some n → (cktGet s n).st = 2 → o = (cktGet s n).out → o ≠ 0x7F → o.toNat ≠ p → fenced s k.src = false →
        k.age.toNat < s.rt.ageLim.toNat → mayForward s k = true → ∃ t, exec (.packetForward p 7 k) s = .next t ∧
        (vcGet t o.toNat 7).fwd = (vcGet s o.toNat 7).fwd ++ [(p, k)] ∧ (vcGet t p 7).arr = (vcGet s p 7).arr.erase k ∧ t = { s with link := t.link }) ∧
      ((cktFind s p k.slice k.src k.dst = none ∨ ∃ n, cktFind s p k.slice k.src k.dst = some n ∧ (cktGet s n).st = 3) →
        ∃ t, exec (.packetForward p 7 k) s = .next t ∧ t.ckt = { s.ckt with drop := satInc s.ckt.drop } ∧ (evGet t .ckt).getLsbD 2 = true)) ∧
    (∀ r, (vcGet s p 6).arr = k :: r → ∃ t, exec (.vc6Packet p) s = .next t ∧ (vcGet t p 6).arr = r ∧
      (vcGet t p 6).owed = (vcGet s p 6).owed + packetFlits k ∧ t = { s with link := t.link }) ∧
    ((vcGet s p 6).arr = [] → exec (.vc6Packet p) s = .next s)

/-- R356 to R359, R366, R369: a request that a region entry of the slice grants is carried out in local memory and answered DONE, a read with the bytes,
an atomic with the old value; one that no entry grants is answered PROT_DENIED, counted and told, and does nothing. -/
def Obligations.RemoteTargets : Prop :=
  ∀ (s : State) (k : Packet) (a n w : Nat), Idle s → Sound s → k.src = s.rt.chip → k.mcast = false →
    (LoopArrives s k 0 → n = fld k.aux 0 13 → targetCheck s k n 1 = .ok a → exec (.readReq none k) s =
      .next { s with rmt := { s.rmt with loop := s.rmt.loop.erase k ++ [loopAnswer s k 3 0 (memRead s.mem a n) 0] } }) ∧
    (∀ c, (c = .writeReq none k ∧ LoopArrives s k 1 ∧ targetCheck s k k.payload.length 2 = .ok a) ∨
        (c = .mirrorWrite none k ∧ LoopArrives s k 6 ∧ targetCheck s k k.payload.length 4 = .ok a) →
      ∃ t, exec c s = .next t ∧ (∀ j < k.payload.length, memGet t.mem (a + j) = k.payload.getD j 0) ∧
        (∀ b, (b < a ∨ a + k.payload.length ≤ b) → memGet t.mem b = memGet s.mem b) ∧
        t = { s with mem := t.mem, coh := t.coh, rmt := { s.rmt with loop := s.rmt.loop.erase k ++ [loopAnswer s k 4 0 [] 0] } }) ∧
    (LoopArrives s k 2 → w = (if k.aop = 1 ∨ k.aop = 3 then 4 else 8) → targetCheck s k w 3 = .ok a →
      ∃ t, exec (.atomicReq none k) s = .next t ∧
        (k.aop ≠ 2 → memRead t.mem a w = leBytes w (atomNew k.aop.toNat (memNat s a w) k.aux (leNat k.payload))) ∧
        (k.aop = 2 → memNat s a 8 = k.aux.toNat → memRead t.mem a 8 = leBytes 8 (leNat k.payload)) ∧
        (k.aop = 2 → memNat s a 8 ≠ k.aux.toNat → t.mem = s.mem) ∧
        (∀ b, (b < a ∨ a + w ≤ b) → memGet t.mem b = memGet s.mem b) ∧
        t = { s with mem := t.mem, coh := t.coh,
                     rmt := { s.rmt with loop := s.rmt.loop.erase k ++ [loopAnswer s k 5 0 [] (BitVec.ofNat 64 (memNat s a w))] } }) ∧
    (∀ c r, (c = .readReq none k ∧ LoopArrives s k 0 ∧ r = 3 ∧ targetCheck s k (fld k.aux 0 13) 1 = .error stProt) ∨
        (c = .writeReq none k ∧ LoopArrives s k 1 ∧ r = 4 ∧ targetCheck s k k.payload.length 2 = .error stProt) ∨
        (c = .mirrorWrite none k ∧ LoopArrives s k 6 ∧ r = 4 ∧ targetCheck s k k.payload.length 4 = .error stProt) →
      ∃ t, exec c s = .next t ∧ t.mem = s.mem ∧ t.rmt.deny = satInc s.rmt.deny ∧
        t.rmt.loop = s.rmt.loop.erase k ++ [loopAnswer s k r stProt [] 0] ∧ Raised { s with rmt := t.rmt } t .rmt 1)

/-- R353, R362 to R364: a response settles the request it answers: its entry is free, its operation hears of it, read data go where they belong; one
with no request is late; a request that times out settles TARGET_TIMEOUT; a STREAM_ACK settles a journal record. What goes beyond the spec's words
here is the model's choice: log entries 52, 86, 141, 143. -/
def Obligations.RemoteAnswers : Prop :=
  ∀ (s : State) (k : Packet) (o : Outst) (x : RmtOp) (d p v tag : Nat), Up s → Sound s →
    (∀ c, (c = .readResp none k ∧ LoopArrives s k 3) ∨ (c = .writeAck none k ∧ LoopArrives s k 4) ∨ (c = .atomicResp none k ∧ LoopArrives s k 5) →
      outFind s k.tag.toNat = none → Idle s → ∃ t, exec c s = .next t ∧
        t.rmt = { s.rmt with loop := s.rmt.loop.erase k, late := satInc s.rmt.late } ∧ Raised { s with rmt := t.rmt } t .rmt 2) ∧
    (LoopArrives s k 3 → outFind s k.tag.toNat = some o → o.ptype = 0 → o.dst = k.src → k.status = 0 → opGet s o.op = some x →
      x.owner = .desc d → (∃ a, o.loc = [(a, k.payload.length)] ∧ hbmOk s a k.payload.length = true) →
      ∃ t, exec (.readResp none k) s = .next (fabricRest t) ∧
        (∀ a j, o.loc = [(a, k.payload.length)] → j < k.payload.length → memGet t.mem (a + j) = k.payload.getD j 0) ∧
        t.rmt = { s.rmt with
          loop := s.rmt.loop.erase k, out := s.rmt.out.filter (fun y => y.tag != o.tag),
          ops := s.rmt.ops.map (fun y => if y.id = o.op then { y with left := y.left - 1, bytes := y.bytes + o.len } else y) } ∧
        t = { s with mem := t.mem, coh := t.coh, rmt := t.rmt }) ∧
    (LoopArrives s k 4 → outFind s k.tag.toNat = some o → (o.ptype = 1 ∨ o.ptype = 6) → o.dst = k.src → o.want = 0 → k.status = 0 →
      exec (.writeAck none k) s = .next (fabricRest { s with rmt := { s.rmt with
        loop := s.rmt.loop.erase k, out := s.rmt.out.filter (fun y => y.tag != o.tag),
        ops := s.rmt.ops.map (fun y => if y.id = o.op then { y with left := y.left - 1, bytes := y.bytes + o.len } else y) } })) ∧
    (LoopArrives s k 5 → outFind s k.tag.toNat = some o → o.ptype = 2 → o.dst = k.src → k.status = 0 →
      ∃ t, exec (.atomicResp none k) s = .next (fabricRest t) ∧ t = { s with rmt := { s.rmt with
        loop := s.rmt.loop.erase k, out := s.rmt.out.filter (fun y => y.tag != o.tag),
        ops := s.rmt.ops.map (fun y => if y.id = o.op then { y with old := k.aux, left := y.left - 1 } else y) } }) ∧
    (outFind s tag = some o → opGet s o.op = some x → ∃ t, exec (.remoteTimeout tag) s = .next (fabricRest t) ∧
      t.rmt.timeouts = satInc s.rmt.timeouts ∧ t.rmt.out = s.rmt.out.filter (fun y => y.tag != o.tag) ∧
      (∃ y, opGet t o.op = some y ∧ y.left = x.left - 1 ∧ y.codes = x.codes ++ [stTimeout] ∧ y.timed = true ∧ y.told = x.told ++ [stTimeout]) ∧
      Raised { s with rmt := t.rmt } t .rmt 0) ∧
    (portUp s p = true → reservedPort s p = true → k.ptype = 8 → arrivedOn s p k = some v → k.slice = s.rt.slice →
      k.stream.toNat = fld s.shf.jrnlDest 16 16 → k.status = 0 → ∃ t, exec (.streamAck p k) s = .next (fabricRest t) ∧
      t.shf = { s.shf with jout := s.shf.jout.filter (fun j => !(j.user == k.aux && j.pos == k.offset.setWidth 32)) } ∧
      (vcGet t p v).arr = (vcGet s p v).arr.erase k ∧ t = { s with link := t.link, shf := t.shf })

/-- R401 to R404, R406, R420: FAB_FDOM is set by the management network while no entry is VALID; an entry made VALID is checked and copied to its
partner; one that has broken is copied again by RESYNC; REBUILD reads the partner's commit record first; a pending range is written to the partner
at the same distance from its base. What goes beyond the spec's words here is the model's choice: log entry 99. -/
def Obligations.MirrorCommands : Prop :=
  ∀ (s : State) (n w k : Nat) (v : W64) (f : W32) (m m' : Mirror), FwRuns s → n < 64 → w < 8 → m = mirGet s n → m' = mirWith m w v →
    ((∀ i < 64, (mirGet s i).valid = false) → exec (.fabFdomWrite .mgmt f) s =
      .next { s with mir := { s.mir with fdom := BitVec.ofNat 16 (f.toNat % 65536) } }) ∧
    (exec (.fabFdomWrite .host f) s = .next s) ∧
    (m.valid = true → ∃ t, exec (.fabFdomWrite .mgmt f) s = .next t ∧ Raised s t .mir 5) ∧
    (Idle s → m.valid = false → (w ≠ 0 ∨ v.getLsbD 0 = false) → exec (.fabMirWrite n w v) s = .next (mirPut s n m')) ∧
    (m.valid = false → w = 0 → v.getLsbD 0 = true → v.getLsbD 1 = false → mirAllowed s n m' = true →
      ∃ t o, exec (.fabMirWrite n w v) s = .next (fabricRest t) ∧ mirGet t n = { m' with valid := true, st := 1 } ∧
        t.rmt = { s.rmt with ops := s.rmt.ops ++ [o], nextOp := s.rmt.nextOp + 1 } ∧ t = { s with mir := t.mir, rmt := t.rmt } ∧
        o.owner = .resync n ∧ o.ptype = 6 ∧ o.dst = m'.partner ∧ o.todo = [(m'.pbase, m'.size, m'.lbase)]) ∧
    (Idle s → m.valid = false → w = 0 → v.getLsbD 0 = true → mirAllowed s n m' = false → sameDomain s m' = false →
      ∃ t, exec (.fabMirWrite n w v) s = .next t ∧ Raised s t .mir 5) ∧
    (m.valid = true → m.st ≠ 4 → w = 0 → v.getLsbD 0 = false → mirSame m m' = true → ∃ t, exec (.fabMirWrite n w v) s = .next (fabricRest t) ∧
      mirGet t n = { m with valid := false, st := 0 } ∧ (∀ r ∈ t.mir.ranges, r.ent ≠ n ∨ (r.sent = true ∧ r.stale = true)) ∧ t = { s with mir := t.mir, rmt := t.rmt }) ∧
    (m.valid = false → m.rank = false → mirAllowed s n m = true → ∃ t o, exec (.rebuild n) s = .next (fabricRest t) ∧
      mirGet t n = { m with valid := true, st := 4 } ∧ t.rmt = { s.rmt with ops := s.rmt.ops ++ [o], nextOp := s.rmt.nextOp + 1 } ∧
      o.owner = .rebRecord n ∧ o.ptype = 0 ∧ o.dst = m.partner ∧ o.todo = [(m.cbase, 64, 0)] ∧ t = { s with mir := t.mir, rmt := t.rmt }) ∧
    (m.st = 3 → m.rank = false → s.rt.slice ≠ 0 → ∃ t o, exec (.mirResync n) s = .next (fabricRest t) ∧
      mirGet t n = { m with valid := true, st := 1 } ∧ t.rmt = { s.rmt with ops := s.rmt.ops ++ [o], nextOp := s.rmt.nextOp + 1 } ∧
      o.owner = .resync n ∧ o.ptype = 6 ∧ o.dst = m.partner ∧ o.todo = [(m.pbase, m.size, m.lbase)] ∧ t = { s with mir := t.mir, rmt := t.rmt }) ∧
    (Idle s → m.st ≠ 3 → ∃ t, exec (.mirResync n) s = .next t ∧ Raised s t .mir 5) ∧
    (∀ r, s.mir.ranges.find? (fun y => y.num == k && !y.sent) = some r → r.ent = n → behind s.mir.ranges r = false → m.rank = false →
      mirrorClash s m.partner (m.pbase + (r.addr - m.lbase)) r.data.length = false → s.rt.slice ≠ 0 →
      ∃ t o, exec (.mirrorSend k) s = .next (fabricRest t) ∧ (∀ y ∈ t.mir.ranges, y.num = k → y.sent = true) ∧
        t.rmt = { s.rmt with ops := s.rmt.ops ++ [o], nextOp := s.rmt.nextOp + 1 } ∧ o.owner = .range n k ∧ o.ptype = 6 ∧ o.dst = m.partner ∧
        o.todo = [(m.pbase + (r.addr - m.lbase), r.data.length, r.addr)] ∧ o.got = r.data ∧ t = { s with mir := t.mir, rmt := t.rmt })

/-- R411, R414 to R417: a renewal with a higher number grants the lease; an older number is refused. At the expiry, and when its own number is fenced,
the chip goes quiet: its tillers stop. The fence list is the management network's. What goes beyond the spec's words here is the model's choice: log
entries 103, 149. -/
def Obligations.LeaseAndFence : Prop :=
  ∀ (s : State) (chip : Nat) (sq : W32) (b : W64), Idle s →
    (fwUp s = true →
      (chip < 65536 → s.rmt.out = [] → (∀ p < portsOf s, (portGet s p).inj = [] ∧ (portGet s p).stall = []) →
        (chip ≠ s.rt.chip.toNat ∨ s.lease.st = 2 → ∃ t, exec (.add .mgmt chip) s = .next t ∧ t.fence = { s.fence with chips := insertAsc chip s.fence.chips } ∧
          (∀ p, portGet t p = portGet s p) ∧ t.link.drops = s.link.drops ∧ t = { s with fence := t.fence, link := t.link }) ∧
        (chip = s.rt.chip.toNat → s.lease.st ≠ 2 → NoWork s → ∃ t, exec (.add .mgmt chip) s = .next t ∧
          t.fence = { s.fence with chips := insertAsc chip s.fence.chips } ∧ t.lease = { s.lease with st := 2 } ∧ (∀ e < 64, wentQuiet s t e) ∧
          (evGet t .mgt).getLsbD 0 = true ∧ t.mem = s.mem)) ∧
      (exec (.remove .mgmt chip) s = .next { s with fence := { s.fence with chips := s.fence.chips.filter (fun c => c != chip) } }) ∧
      (exec (.clearAll .mgmt) s = .next { s with fence := { s.fence with chips := [] } }) ∧
      (∀ c, (c = .add .host chip ∨ c = .remove .host chip ∨ c = .clearAll .host ∨ c = .leaseRenew .host sq) → exec c s = .next s) ∧
      (s.boot.stage = 13 → s.lease.phase = 0 → s.lease.lastSeq.toNat < sq.toNat → s.lease.renewBeat = 0 →
        b = s.beat.now + s.lease.len.setWidth 64 → s.beat.now.toNat < b.toNat →
        exec (.leaseRenew .mgmt sq) s = .next { s with lease := { s.lease with expiry := b, lastSeq := sq, st := 1 } }) ∧
      (sq.toNat ≤ s.lease.lastSeq.toNat → ∃ t, exec (.leaseRenew .mgmt sq) s = .next t ∧ Raised s t .mgt 1)) ∧
    (s.lease.st = 1 → s.beat.now.toNat < s.lease.expiry.toNat → exec .leaseExpiry s = .next s) ∧
    (s.lease.st = 1 → s.lease.expiry.toNat ≤ s.beat.now.toNat → s.lease.phase ≠ 1 → NoWork s → ∃ t, exec .leaseExpiry s = .next t ∧
      t.lease = { s.lease with st := 2 } ∧ (∀ e < 64, wentQuiet s t e) ∧ (∀ p, portGet t p = portGet s p) ∧
      Raised { s with lease := t.lease, engines := t.engines, link := t.link } t .mgt 0) ∧
    (s.lease.phase = 1 → s.lease.armedD.toNat ≤ s.beat.now.toNat → NoWork s → ∃ t, exec .reclaimDeadline s = .next t ∧
      t.lease = { s.lease with phase := 2, cut := true } ∧ (∀ e < 64, wentQuiet s t e) ∧ (∀ p, portGet t p = portGet s p) ∧
      t = { s with lease := t.lease, engines := t.engines, link := t.link }) ∧
    (s.lease.phase = 1 → s.beat.now.toNat < s.lease.armedD.toNat → exec .reclaimDeadline s = .next s)

/-- R422 to R424: GO arms the deadline and takes the snapshot of every queue; DRAIN, CUTOFF and FLUSH end when nothing that they wait for is left; SCRUB
leaves memory and tillers zero; CLEAR takes the slice, its tables and the fences away, and the chip is READY. What goes beyond the spec's words here
is the model's choice: log entries 101, 106. -/
def Obligations.ReclaimPhases : Prop :=
  ∀ (s : State) (usec : Nat), Up s →
    (FwRuns s → Idle s → s.boot.stage = 13 → s.lease.phase = 0 → s.beat.now.toNat + 2 ≤ s.lease.deadline.toNat →
      s.lease.deadline.toNat ≤ s.beat.now.toNat + reclaimLimit s → (∀ n < 64, (mirGet s n).st ≠ 4) → (∀ q, (quGet s q).got = []) →
      ∃ t, exec (.go .mgmt) s = .next t ∧ t.lease = { s.lease with armedD := s.lease.deadline, phase := 1, cut := false } ∧
        (∀ q, quGet t q = { quGet s q with snap := if (quGet s q).st = .active then some (quGet s q).pi else none }) ∧
        Raised { s with lease := t.lease, hif := { s.hif with q := t.hif.q } } t .mgt 2) ∧
    (FwRuns s → Idle s → s.lease.deadline.toNat < s.beat.now.toNat + 2 → ∃ t, exec (.go .mgmt) s = .next t ∧ Raised s t .mgt 4) ∧
    (s.lease.phase = 1 → (∀ e ∈ s.hif.q, snapDone s e.1 = true) → (∀ e < 64, (engGet s e).st = .stopped ∨ (engGet s e).st = .faulted) →
      exec .reclaimDrainEnd s = .next { s with lease := { s.lease with phase := 3 } }) ∧
    (s.lease.phase = 2 → s.hif.started = [] → (∀ e ∈ s.hif.q, e.2.st ≠ .active ∨ e.2.got = []) →
      (∀ e < 64, (engGet s e).st = .stopped ∨ (engGet s e).st = .faulted) →
      exec .reclaimCutoffEnd s = .next { s with lease := { s.lease with phase := 3 } }) ∧
    (s.lease.phase = 3 → s.mir.ranges = [] → s.rmt.ops = [] → exec .reclaimFlushEnd s = .next { s with lease := { s.lease with phase := 4 } }) ∧
    (s.lease.phase = 4 → s.inv.tiles = [] → (∀ j < stacksOf s, (stackGet s j).ue = []) → ∃ t, exec (.reclaimScrubEnd []) s = .next t ∧
      t.lease = { s.lease with phase := 5 } ∧ t.ms.bad = [] ∧ t.seqs.slots = [] ∧ (∀ a < regionsOf s * 2 ^ 30, memGet t.mem a = 0) ∧
      (∀ a, winBase 0 ≤ a → a < winBase 64 → memGet t.mem a = 0) ∧ (∀ d < 4, cacheGet t d = []) ∧
      ∀ e < 64, engGet t e = { (engGet s e).zeroed with ctrs := (engGet s e).ctrs }) ∧
    (s.lease.phase = 5 → Idle s → (∀ n < 256, (cktGet s n).st = 0) → ∃ t, exec (.reclaimClearEnd usec) s = .next t ∧
      t.lease = { s.lease with phase := 6, st := 0, time := BitVec.ofNat 32 (min usec (2 ^ 32 - 1)) } ∧ t.rt.slice = 0 ∧ t.rt.rankCount = 0 ∧
      t.rmt = { s.rmt with rgn := [] } ∧ t.fence = { s.fence with chips := [] } ∧ t.mir.ents = [] ∧ t.ms = { s.ms with place := [], drains := [] } ∧
      t.seqs = .init ∧ evGet t .seq = 0 ∧ (∀ q, (quGet t q).snap = none) ∧ t.mem = s.mem ∧ (evGet t .mgt).getLsbD 3 = true)

/-- R15, R271: sixteen blocks in a row that fail their CRC start a retrain of their interface; a retrain maps spare wires in, and one that needs more
than four takes the interface out of service. What goes beyond the spec's words here is the model's choice: log entries 67, 69. -/
def Obligations.DieInterfaces : Prop :=
  ∀ (s : State) (i n most : Nat) (spares used : List Nat), Idle s → i < 24 → i ∉ s.ms.sitesLost → n = tblGet (fun _ => 0) s.ms.resend i →
    used = spares.take (wireGroups i) → most = used.foldl max 0 →
    (i ∉ s.ms.retrain → ∃ t, exec (.d2dBlockRx i true) s = .next t ∧ tblGet (fun _ => 0) t.ms.resend i = 0 ∧
      t = { s with ms := { s.ms with resend := t.ms.resend } }) ∧
    (i ∉ s.ms.retrain → n < 15 → ∃ t, exec (.d2dBlockRx i false) s = .next t ∧ tblGet (fun _ => 0) t.ms.resend i = n + 1 ∧
      t = { s with ms := { s.ms with resend := t.ms.resend, crc := satInc s.ms.crc } }) ∧
    (i ∉ s.ms.retrain → 15 ≤ n → ∃ t, exec (.d2dBlockRx i false) s = .next t ∧ i ∈ t.ms.retrain ∧
      tblGet (fun _ => 0) t.ms.resend i = 0 ∧ t = { s with ms := { s.ms with resend := t.ms.resend, retrain := t.ms.retrain } }) ∧
    (i ∈ s.ms.retrain → most ≤ 4 → ∃ t, exec (.d2dRetrainEnd i spares) s = .next t ∧ i ∉ t.ms.retrain ∧ i ∉ t.ms.sitesLost ∧
      wireGet t i = BitVec.ofNat 32 (max (used.filter (fun k => k != 0)).length (fld (wireGet s i) 0 8) + max most (fld (wireGet s i) 8 3) * 2 ^ 8) ∧
      Raised { s with ms := t.ms, inv := t.inv } t .mem 3) ∧
    (i ∈ s.ms.retrain → 4 < most → i < 4 → ∃ t, exec (.d2dRetrainEnd i spares) s = .next t ∧ i ∈ t.ms.sitesLost ∧ i ∉ t.ms.retrain ∧
      (wireGet t i).getLsbD 11 = true ∧ t.boot.degraded = true ∧ t.inv.dirty = true ∧ (evGet t .inv).getLsbD 2 = true ∧ t.mem = s.mem) ∧
    (∀ d, i ∈ s.ms.retrain → 4 < most → d < 4 → i = 20 + d → (∀ e < 64, (engGet s e).exec = []) → ∃ t,
      exec (.d2dRetrainEnd i spares) s = .next t ∧ i ∈ t.ms.sitesLost ∧ (sheafGet t d).st = .off ∧ (sheafGet t d).permanent = true)

/-- R222, R225, R226, R228: a sheaf that is enabled warms, is calibrated and then READY under the image it holds, with the next epoch; a calibration
that fails twice, and a warm-up that fails three times, take it OFF; windows end READY or in a new calibration; PROGRAM takes an image that passes
its checks. R181, R225, R227, R253: from 16 ms after a calibration a window opens when no grain waits, from 19.9 ms it is forced; a sheaf that loses
its lock, or whose die warms or cools by more than 3 K/ms, is UNLOCKED and its grains lose it; the relock sweep leads to a calibration or OFF. What
goes beyond the spec's words here is the model's choice: log entries 43, 54. -/
def Obligations.SheafControl : Prop :=
  (∀ (s : State) (d a cv cu : Nat) (x : Sheaf) (v : W32) (ok : Bool), Up s → d < 4 → x = sheafGet s d → (∀ e < 64, (engGet s e).exec = []) →
    a = s.shf.imageAt.toNat →
    (fwUp s = true → ∃ t, exec (.shfCtrlWrite v) s = .next t ∧ t.shf.en = v.setWidth 4 ∧
      (s.shf.en.getLsbD d = true → v.getLsbD d = false → (sheafGet t d).st = .off) ∧
      (s.shf.en.getLsbD d = false → v.getLsbD d = true → mayWarm s d = true → sheafGet t d = { x with st := .warming, tries := 0 }) ∧
      (s.shf.en.getLsbD d = v.getLsbD d → sheafGet t d = x) ∧ t = { s with shf := t.shf }) ∧
    (fwUp s = true → (x.st = .ready ∨ x.st = .window) → exec (.fullCal (2 ^ d)) s =
      .next (sheafPut s d { x with st := .calibrating, tries := 0, progNow := false })) ∧
    (fwUp s = true → hbmOk s a 33344 = true → readFails s a 33344 = false → x.st = .ready → ∃ t, exec (.program (2 ^ d)) s = .next t ∧
      (imageOk (memRead s.mem a 33344) = true →
        t = sheafPut s d { x with st := .window, held := some (memRead s.mem a 33344), progNow := true }) ∧
      (imageOk (memRead s.mem a 33344) = false → Raised s t .shf 16)) ∧
    (fwUp s = true → hbmOk s a 33344 = true → readFails s a 33344 = false → x.st ≠ .ready → ∃ t, exec (.program (2 ^ d)) s = .next t ∧
      (imageOk (memRead s.mem a 33344) = true → t = sheafPut s d
        { x with held := some (memRead s.mem a 33344), heldWin := x.st == .window, heldNext := x.st == .calibrating }) ∧
      (imageOk (memRead s.mem a 33344) = false → Raised s t .shf 16)) ∧
    (fwUp s = true → hbmOk s a 33344 = false → ∃ t, exec (.program (2 ^ d)) s = .next t ∧ Raised s t .shf 16) ∧
    (x.st = .warming → exec (.sheafWarmEnd d true) s =
      .next (sheafPut s d { x with st := .calibrating, tries := 0, heldNext := false })) ∧
    (x.st = .warming → x.tries < 2 → exec (.sheafWarmEnd d false) s = .next (sheafPut s d { x with tries := x.tries + 1 })) ∧
    (x.st = .warming → 2 ≤ x.tries → ∃ t, exec (.sheafWarmEnd d false) s = .next t ∧ (sheafGet t d).st = .off ∧ t.boot.degraded = true ∧
      (evGet t .shf).getLsbD (8 + d) = true ∧ (evGet t .shf).getLsbD (12 + d) = true) ∧
    (x.st = .calibrating → x.heldNext = false → exec (.sheafCalEnd d true 0 0) s = .next (sheafPut s d { x with
      st := .ready, tries := 0, progNow := false, epoch := nextEpoch x (x.held.or x.image), image := x.held.or x.image, held := none,
      since := s.beat.now, aged := 0, heldNext := false })) ∧
    (x.st = .calibrating → x.heldNext = true → exec (.sheafCalEnd d true 0 0) s = .next (sheafPut s d { x with
      st := .ready, tries := 0, progNow := false, epoch := nextEpoch x x.image, since := s.beat.now, aged := 0, heldNext := false })) ∧
    (x.st = .calibrating → x.tries = 0 → ∃ t, exec (.sheafCalEnd d false 0 0) s = .next t ∧ sheafGet t d = { x with tries := 1, heldNext := false } ∧
      Raised { s with shf := t.shf } t .shf (8 + d)) ∧
    (x.st = .calibrating → x.tries ≠ 0 → ∃ t, exec (.sheafCalEnd d false 0 0) s = .next t ∧ (sheafGet t d).st = .off ∧
      t.boot.degraded = true ∧ (evGet t .shf).getLsbD (12 + d) = true) ∧
    (x.st = .calibrating → (x.spareV < cv ∨ x.spareU < cu) → ∃ t, exec (.sheafCalEnd d ok cv cu) s = .next t ∧ (sheafGet t d).st = .off ∧
      (sheafGet t d).permanent = true ∧ (evGet t .inv).getLsbD 2 = true) ∧
    (x.st = .window → x.held = none → x.progNow = false → exec (.sheafWindowEnd d true) s = .next (sheafPut s d { x with
      st := .ready, tries := 0, epoch := nextEpoch x x.image, since := s.beat.now, aged := 0, heldNext := false })) ∧
    (x.st = .window → x.progNow = true → exec (.sheafWindowEnd d true) s = .next (sheafPut s d { x with
      st := .ready, tries := 0, progNow := false, epoch := nextEpoch x (x.held.or x.image), image := x.held.or x.image, held := none,
      since := s.beat.now, aged := 0, heldNext := false })) ∧
    (x.st = .window → x.progNow = false → x.held ≠ none → x.heldWin = true → exec (.sheafWindowEnd d true) s = .next (sheafPut s d { x with
      tries := 0, progNow := true, epoch := nextEpoch x x.image, since := s.beat.now, aged := 0, heldNext := false })) ∧
    (x.st = .window → ∃ t, exec (.sheafWindowEnd d false) s = .next t ∧ sheafGet t d = { x with st := .calibrating, tries := 0, progNow := false } ∧
      Raised { s with shf := t.shf } t .shf (8 + d))) ∧
  (∀ (s : State) (d : Nat) (x : Sheaf) (rate : Int), Up s → d < 4 → x = sheafGet s d →
    (x.st = .ready → 40000000 ≤ sinceCal s x → grainsWait s d = false → windowWaits s = false → exec (.sheafCalWindow d) s =
      .next (sheafPut s d { x with st := .window })) ∧
    (x.st = .ready → sinceCal s x < 40000000 → exec (.sheafCalWindow d) s = .next s) ∧
    (x.st = .ready → 49750000 ≤ sinceCal s x → grainsWait s d = false → windowWaits s = false → exec (.sheafForcedWindow d) s =
      .next (sheafPut s d { x with st := .window })) ∧
    (x.st = .ready → 49750000 ≤ sinceCal s x → grainsWait s d = true → windowWaits s = false → ∃ t, exec (.sheafForcedWindow d) s = .next t ∧
      sheafGet t d = { x with st := .window } ∧ t.shf.forced = satInc s.shf.forced ∧ t.beat = { s.beat with late := satInc s.beat.late } ∧
      (evGet t .beat).getLsbD 4 = true ∧ Raised { s with shf := t.shf, engines := t.engines, beat := t.beat } t .shf (4 + d)) ∧
    (windowWaits s = true → exec (.sheafCalWindow d) s = .next s ∧ exec (.sheafForcedWindow d) s = .next s) ∧
    (x.st = .ready → sinceCal s x < 49750000 → exec (.sheafForcedWindow d) s = .next s) ∧
    (∀ c, (c = .sheafLockLost d ∨ (c = .photonicRateSample d rate ∧ 3000 < rate.natAbs)) →
      x.st = .ready ∨ x.st = .window ∨ x.st = .calibrating → ∃ t, exec c s = .next t ∧
        sheafGet t d = { x with st := .unlocked, tries := 0, progNow := false } ∧ t.shf.unlocks = satInc s.shf.unlocks ∧
        (∀ i < 16, (engGet t (16 * d + i)).exec =
          (engGet s (16 * d + i)).exec.map (fun y => if wOp y.i.word = 0xF8 then { y with lock := false } else y)) ∧
        Raised { s with shf := t.shf, engines := t.engines } t .shf d) ∧
    (rate.natAbs ≤ 3000 → exec (.photonicRateSample d rate) s = .next s) ∧
    (x.st = .unlocked → exec (.sheafRelockEnd d true) s =
      .next (sheafPut s d { x with st := .calibrating, tries := 0, heldNext := false })) ∧
    (x.st = .unlocked → ∃ t, exec (.sheafRelockEnd d false) s = .next t ∧ (sheafGet t d).st = .off ∧ t.boot.degraded = true ∧
      (evGet t .shf).getLsbD (12 + d) = true))

/-- R242, R244: the loop of a ring goes from SWEEP through CAPTURE and VERIFY to LOCKED, back to SWEEP where a step does not find its own channel, and
to FAILED after three full sweeps; a LOCKED ring that reads wrong twice, or is lost, starts over. What goes beyond the spec's words here is the
model's choice: log entries 57, 58, 59. -/
def Obligations.RingLoops : Prop :=
  ∀ (s : State) (r : RingId) (x : Ring) (err : Int) (pilot : Option Nat) (margin : Nat), Idle s → ringOk s r = true → x = loopGet s r →
    (x.st = .sweep → exec (.ringSweepEnd r true) s = .next (loopPut s r { x with st := .capture })) ∧
    (x.st = .sweep → x.narrow = true → exec (.ringSweepEnd r false) s = .next (loopPut s r { x with narrow := false })) ∧
    (x.st = .sweep → x.narrow = false → x.full < 2 → exec (.ringSweepEnd r false) s = .next (loopPut s r { x with full := x.full + 1 })) ∧
    (x.st = .sweep → x.narrow = false → 2 ≤ x.full → ∃ t, exec (.ringSweepEnd r false) s = .next t ∧ (loopGet t r).st = .failed ∧
      Raised { s with optics := t.optics } t .opt 2) ∧
    (x.st = .capture → exec (.ringCaptureEnd r err) s = .next (loopPut s r { x with st := if err.natAbs ≤ 4000 then .verify else .sweep })) ∧
    (x.st = .verify → pilot = some (ringChannel r) → 10 ≤ margin → ∃ t, exec (.ringVerifyEnd r pilot margin) s = .next t ∧
      loopGet t r = ⟨.locked, true, 0, 0⟩ ∧ t = { s with optics := t.optics, link := t.link }) ∧
    (x.st = .verify → pilot = some (ringChannel r) ∨ pilot = none → margin < 10 → exec (.ringVerifyEnd r pilot margin) s =
      .next (loopPut s r { x with st := .sweep })) ∧
    (x.st = .verify → pilot ≠ some (ringChannel r) → pilot ≠ none → ∃ t, exec (.ringVerifyEnd r pilot margin) s = .next t ∧
      loopGet t r = { x with st := .sweep } ∧ t.optics.mislock = satInc s.optics.mislock ∧ t = { s with optics := t.optics }) ∧
    (x.st = .locked → pilot = some (ringChannel r) → exec (.ringPilotCheck r pilot) s = .next (loopPut s r { x with bad := 0 })) ∧
    (x.st = .locked → pilot ≠ some (ringChannel r) → x.bad = 0 → exec (.ringPilotCheck r pilot) s = .next (loopPut s r { x with bad := 1 })) ∧
    (x.st = .locked → pilot ≠ some (ringChannel r) → x.bad ≠ 0 → ringUnused s r = true → ∃ t, exec (.ringPilotCheck r pilot) s = .next t ∧
      loopGet t r = ⟨.sweep, ringMapped s r, 0, 0⟩ ∧ t.optics.mislock = satInc s.optics.mislock ∧
      Raised { s with optics := t.optics } t .opt 0) ∧
    (x.st = .locked → ringUnused s r = true → ∃ t, exec (.ringUnlock r) s = .next t ∧ loopGet t r = ⟨.sweep, true, 0, 0⟩ ∧
      Told { s with optics := t.optics } t)

/-- R247 to R249: the bias of a laser goes up half a per cent where the far end reports too little power and down where it reports too much; a bank at
85 % is worn, and the spare bank of its die takes its place in a window, by command, or when power is short. R250 to R252, R254: TEST runs in HOLD;
a pass with every lane at the least margin ends it with the result of its step; a failed pass goes on to FEC, and then retires the lane with the
least margin; recovery takes an UP port down and tests it; the slew limit is only ever lowered. What goes beyond the spec's words here is the
model's choice: log entries 60, 63. -/
def Obligations.OpticalControl : Prop :=
  (∀ (s : State) (n k sp : Nat) (reports : List Nat) (b : Bank), Idle s → n < 3 * ioDiesOf s → k < 9 → b = bankGet s n →
    (∀ v c, b.st = 1 → leastPower s ((bankPorts n b).filter (fun p => reports.contains p)) k = some v → c = biasOf s n k →
      ∃ t, exec (.laserBiasTick n k reports) s = .next t ∧
        tblGet (fun _ => 0) (bankGet t n).bias k = (if v < s.optics.rxTarget.toInt - 50 then min 200 (c + 1)
          else if s.optics.rxTarget.toInt + 100 < v then max (startOf s n k) (c - 1) else c) ∧
        (∀ m, m ≠ n → bankGet t m = bankGet s m) ∧ Told { s with optics := t.optics } t) ∧
    (leastPower s ((bankPorts n b).filter (fun p => reports.contains p)) k = none → exec (.laserBiasTick n k reports) s = .next s) ∧
    (∀ c, (c = .bankSwapStart n ∨ (c = .optSwap n ∧ fwUp s = true)) → b.st = 1 → b.pend = true → spareBank s (n / 3) = some sp → PortsDown s n →
      ∃ t, exec c s = .next t ∧ swapBegun s t n sp ∧ t = { s with optics := t.optics }) ∧
    (b.pend = false → exec (.bankSwapStart n) s = .next s) ∧
    (∀ c, (c = .bankSwapStart n ∨ (c = .optSwap n ∧ fwUp s = true)) → b.st = 1 → b.pend = true → spareBank s (n / 3) = none → PortsDown s n →
      ∃ t, exec c s = .next t ∧ (evGet t .opt).getLsbD 9 = true ∧ (evGet t .inv).getLsbD 2 = true ∧ t.optics = s.optics ∧
      t.boot = { s.boot with degraded := true }) ∧
    (∀ c, ((c = .bankSwapStart n ∧ ∀ p ∈ bankPorts n b, (portGet s p).st = .hold ∨ (portGet s p).st = .down) ∨ (c = .optSwap n ∧ fwUp s = true)) →
      b.st = 1 → b.pend = true → spareBank s (n / 3) = some sp → s.shf.jout = [] → (∀ m < 256, (cktGet s m).st ≠ 2) →
      (∀ p ∈ bankPorts n b, PortPassing s p) → ∃ t, exec c s = .next t ∧ swapBegun s t n sp ∧ (∀ p ∈ bankPorts n b, (portGet t p).st ≠ .up) ∧
        t.mem = s.mem ∧ t.engines = s.engines) ∧
    (∀ v, b.st = 1 → b.pend = true → biasOf s n k = 200 → leastPower s (bankPorts n b) k = some v → v < s.optics.rxTarget.toInt - 300 →
      (spareBank s (n / 3) = some sp → s.shf.jout = [] → (∀ m < 256, (cktGet s m).st ≠ 2) → (∀ p ∈ bankPorts n b, PortPassing s p) →
        ∃ t, exec (.forcedSwap n) s = .next t ∧ swapBegun s t n sp ∧ (∀ p ∈ bankPorts n b, (portGet t p).st ≠ .up) ∧
        (evGet t .opt).getLsbD 8 = true ∧ t.mem = s.mem ∧ t.engines = s.engines) ∧
      (spareBank s (n / 3) = none → ∃ t, exec (.forcedSwap n) s = .next t ∧ (evGet t .opt).getLsbD 9 = true ∧
        (evGet t .inv).getLsbD 2 = true ∧ t.optics = s.optics ∧ t.boot = { s.boot with degraded := true })) ∧
    (((List.range 3).map (fun i => 3 * (n / 3) + i)).find? (fun m => (bankGet s m).swapTo == some n) = some sp → sp ≠ n →
      (∀ m, (bankGet s m).swapTo ≠ some sp) → ∃ t, exec (.bankSwapDone n) s = .next t ∧ bankGet t n = { b with st := 3, pend := false } ∧
        bankGet t sp = { bankGet s sp with st := 1, group := b.group, swapTo := none } ∧ t.inv = { s.inv with dirty := true } ∧
        (∀ p ∈ bankPorts n b, ∀ j < 9, (optGet s p).txRet.getLsbD j = false → (loopGet s (.modulator p j)).st = .idle →
          (loopGet t (.modulator p j)).st = if 80 ≤ (zoneGet s (49 + 2 * (n / 3))).temp ∧ photonicsOn s = true then .sweep else .idle) ∧
        (evGet t .opt).getLsbD 7 = true)) ∧
  (∀ (s : State) (p n least : Nat) (tx rx : List Nat) (v : W32) (o : OptPort), Idle s → p < portsOf s → o = optGet s p →
    least = (laneMargins s p true tx ++ laneMargins s p false rx).foldl (fun m v => min m v) 255 →
    (fwUp s = true → (portGet s p).st = .hold → o.test = none → ∃ t, exec (.test p) s = .next t ∧
      optGet t p = { o with fec := false, test := some 1 } ∧ portGet t p = { portGet s p with testFresh := true } ∧
      t = { s with optics := t.optics, link := t.link }) ∧
    (fwUp s = true → (portGet s p).st ≠ .hold → ∃ t, exec (.test p) s = .next t ∧ Raised s t .opt 11) ∧
    (o.test ≠ none → o.again = false → s.optics.mMin.toNat ≤ least → ∃ t, exec (.marginPassEnd p tx rx) s = .next t ∧
      optGet t p = { o with margin := BitVec.ofNat 8 least, mstate := marginState { o with margin := BitVec.ofNat 8 least }, test := none } ∧
      (portGet t p).passed = ((portGet s p).passed || (portGet s p).testFresh) ∧ Told { s with optics := t.optics, link := t.link } t) ∧
    (o.test ≠ none → o.again = true → exec (.marginPassEnd p tx rx) s = .next s) ∧
    (o.test ≠ none → o.again = false → least < s.optics.mMin.toNat → o.fec = false → ∃ t, exec (.marginPassEnd p tx rx) s = .next t ∧
      optGet t p = { o with margin := BitVec.ofNat 8 least, fec := true, test := some (marginState { o with fec := true }), again := true } ∧
      (ringsLocked s p = true → switchMoving s p = false → 4 + ioSite s (p / 8) ∉ s.ms.sitesLost → (portGet t p).st = .train) ∧
      (ringsLocked s p = false → (portGet t p).st = .down) ∧ pbGet t p = PortBeat.init ∧
      t = { s with optics := t.optics, link := t.link, beat := t.beat }) ∧
    (∀ ret ln m, o.test ≠ none → o.again = false → o.fec = true → (laneMargins s p true tx).any (fun y => decide (y < s.optics.mMin.toNat)) = true →
      (laneMargins s p false rx).any (fun y => decide (y < s.optics.mMin.toNat)) = false →
      nextStep o.txRet o.txLane o.txMap (worstLane s p true (laneMargins s p true tx)) = some (ret, ln, m) → ∃ t, exec (.marginPassEnd p tx rx) s = .next t ∧
        (optGet t p).txRet = ret ∧ (optGet t p).txLane = ln ∧ (optGet t p).txMap = m ∧ (optGet t p).rxMap = o.rxMap ∧
        (optGet t p).test ≠ none ∧ (optGet t p).again = true ∧ (portGet t p).st ≠ .hold ∧ (portGet t p).st ≠ .up ∧
        (portGet t p).txLanes = BitVec.ofNat 4 m.length) ∧
    (s.optics.ctrl.getLsbD 0 = true → (portGet s p).st = .up → o.again = false → PortPassing s p → s.shf.jout = [] →
      (∀ i < 256, (cktGet s i).st ≠ 2) → ∃ t, exec (.recovery p) s = .next t ∧
        (portGet t p).st = .down ∧ (optGet t p).test = some (marginState o) ∧ (optGet t p).fec = o.fec ∧
        (evGet t .opt).getLsbD 5 = true ∧ (evGet t .link).getLsbD 1 = true) ∧
    (s.optics.ctrl.getLsbD 0 = false → exec (.recovery p) s = .next s) ∧
    (fwUp s = true → n = v.toNat % 64 → 4 ≤ n → n ≤ 40 → n ≤ s.optics.slew.toNat → exec (.optSlewWrite v) s =
      .next { s with optics := { s.optics with slew := BitVec.ofNat 6 n } }) ∧
    (fwUp s = true → s.optics.slew.toNat < v.toNat % 64 → ∃ t, exec (.optSlewWrite v) s = .next t ∧ Raised s t .opt 10))

/-- R254, R432, R433, R436, R450: a die above its allowed power loses steps down to step 12, one with power to spare gains one, none exceeds its highest
step or the pace ceiling, and a step that the slew limit of the dies' power holds does not come; the budget under the cap is shared out and each die
may use its share less the throttle for its temperature. R434, R435, R440, R451: a droop is counted and told and stretches the clock until it is
restored; PWR_CAP takes 500 to 3,300 W; a pace code of its own that persists is told once; a die ages an hour at a time, two where it reached 95 °C.
R437 to R439: an armed hint applies from its start beat, its phase governs, its ramp may lead it; one that applied for its whole length counts into
the phase table, the first time with the mean powers themselves. What goes beyond the spec's words here is the model's choice: log entries 21, 107,
108, 109. -/
def Obligations.PowerControl : Prop :=
  (∀ (s : State) (powers now : List Nat) (pkg nc d top p q : Nat) (x : PwrDie), Up s → d < 4 → x = dieGet s d → p = powers.getD d 0 →
    q = now.getD d 0 →
    top = max 12 (min (fMax s d) (paceCeiling s)) →
    (∃ t, exec (.pwrClockTick powers pkg now) s = .next t ∧ (dieGet t d).power = BitVec.ofNat 10 p ∧ t.pwr.pkg = BitVec.ofNat 12 pkg ∧
      (slewHolds s x q true = true → (dieGet t d).step.toNat ≤ x.step.toNat) ∧ (slewHolds s x q false = true → x.step.toNat ≤ (dieGet t d).step.toNat) ∧
      (slewHolds s x q true = false → slewHolds s x q false = false → x.allowed ≠ 0 → x.allowed < 1000 * p → 12 ≤ (dieGet t d).step.toNat ∧ (dieGet t d).step.toNat ≤ max 12 (min top x.step.toNat - 1)) ∧
      (slewHolds s x q true = false → slewHolds s x q false = false → (x.allowed = 0 ∨ 1000 * p ≤ x.allowed) → (dieGet t d).step.toNat =
        if top < x.step.toNat then top
        else if x.allowed ≠ 0 ∧ 100000 * p < 95 * x.allowed ∧ x.step.toNat < top ∧
          (x.step.toNat < 96 ∨ tblGet (fun _ => 0) s.thm.dies d < 720) then x.step.toNat + 1
        else x.step.toNat) ∧
      Told { s with pwr := t.pwr, free := t.free } t) ∧
    (∃ t, exec (.pwrShareTick nc) s = .next t ∧ (dieGet t d).share = (sharesOf s (1000 * (s.pwr.cap.toNat - nc))).getD d 0 ∧
      (dieGet t d).allowed = min (dieGet t d).share (thermalLimit (dieGet t d).share x.temp) ∧ (dieGet t d).step = x.step ∧
      t = { s with pwr := { s.pwr with dies := t.pwr.dies } })) ∧
  (∀ (s : State) (d n : Nat) (v : W32) (hot : Bool) (x : PwrDie), Up s → d < 4 → x = dieGet s d → n = v.toNat % 4096 →
    (x.droop = false → ∃ t, exec (.droop d) s = .next t ∧ dieGet t d = { x with droop := true, droops := satInc x.droops, limiter := 3 } ∧
      Raised { s with pwr := t.pwr } t .pwr 3) ∧
    (x.droop = true → exec (.droop d) s = .next s ∧ exec (.droopRestore d) s = .next (diePut s d { x with droop := false, limiter := 0 })) ∧
    (fwUp s = true → 500 ≤ n → n ≤ 3300 → exec (.capWrite v) s = .next { s with pwr := { s.pwr with cap := BitVec.ofNat 12 n } }) ∧
    (fwUp s = true → (n < 500 ∨ 3300 < n) → ∃ t, exec (.capWrite v) s = .next t ∧ Raised s t .pwr 5) ∧
    (s.pwr.own ≠ 0 → s.pwr.ptold = false → ∃ t, exec .pacePersist s = .next t ∧ t.pwr = { s.pwr with ptold := true } ∧
      Raised { s with pwr := t.pwr } t .pwr 2) ∧
    (s.pwr.own = 0 → exec .pacePersist s = .next s) ∧
    (∃ t, exec (.ageingHour d hot) s = .next t ∧ (dieGet t d).hours = x.hours + (if hot then 2 else 1) ∧ (dieGet t d).gbLimit ≤ x.gbLimit ∧
      (∀ k, k ≠ d → dieGet t k = dieGet s k) ∧ t.inv.dirty = true ∧ t.mem = s.mem)) ∧
  (∀ (s : State) (k : Nat) (means : List Nat) (h : Hint), Up s → hintOf s k = some h →
    (h.start.toNat ≤ s.beat.now.toNat → cutDue s = false → ∃ t, exec (.phaseHintStart k) s = .next t ∧ hintOf t k = some { h with on := true, ramp := 0 } ∧
      t.pwr.phaseNow = BitVec.ofNat 8 (governing t) ∧ t = { s with pwr := { s.pwr with hints := t.pwr.hints, phaseNow := t.pwr.phaseNow } }) ∧
    ((s.beat.now.toNat < h.start.toNat ∨ cutDue s = true) → exec (.phaseHintStart k) s = .next s) ∧
    (h.on = true → h.start.toNat + h.len ≤ s.beat.now.toNat → ∃ t, exec (.phaseHintEnd k means) s = .next t ∧ hintOf t k = none ∧
      t.pwr.phaseNow = BitVec.ofNat 8 (governing t) ∧
      (h.whole = false → t.pwr.phases = s.pwr.phases) ∧
      (h.whole = true → k ≠ 0 → phaseCount (phaseGet t k) = min 255 (phaseCount (phaseGet s k) + 1) ∧
        (phaseCount (phaseGet s k) = 0 → ∀ d < 4, phaseMean (phaseGet t k) d = min 1023 (means.getD d 0)) ∧
        ∀ j, j ≠ k → phaseGet t j = phaseGet s j)) ∧
    ((h.on = false ∨ s.beat.now.toNat < h.start.toNat + h.len) → exec (.phaseHintEnd k means) s = .next s) ∧
    (2 ≤ phaseCount (phaseGet s k) → h.on = false → ∃ t m, exec (.preRampStart k) s = .next t ∧ hintOf t k = some { h with ramp := m } ∧
      (∀ d < 4, m.getLsbD d = (h.ramp.getLsbD d || decide (rampLead s k d ≠ 0 ∧ h.start.toNat ≤ s.beat.now.toNat + rampLead s k d))) ∧
      t = { s with pwr := { s.pwr with hints := t.pwr.hints } }) ∧
    ((phaseCount (phaseGet s k) < 2 ∨ h.on = true) → exec (.preRampStart k) s = .next s))

/-- R442 to R445: each sample gives every die the temperature of its mode and each compute die the greatest of those that govern it, throttling it above
95 °C; a stack at 90 °C or more has its grants limited; a broken sensor is retired and a spare takes its place. What goes beyond the spec's words
here is the model's choice: log entry 111. -/
def Obligations.ThermalControl : Prop :=
  ∀ (s : State) (readings : List (Nat × Nat × Int)) (models : List (Nat × Int)) (powers : List (Nat × Nat)) (j z k : Nat) (w : Int) (x : Zone),
    Idle s → x = zoneGet s z →
    (j < stacksOf s → (s.boot.stage < 9 ∨ 13 < s.boot.stage) → ∃ t, exec (.thermalSample readings [(j, w)] models powers) s = .next t ∧
      (∀ i ∈ dieKeys s, tblGet (fun _ => 0) t.thm.dies i = dieTemp t i) ∧
      (∀ d < 4, (dieGet t d).temp = maxInt ((governedBy s d).map (fun i => tblGet (fun _ => 0) t.thm.dies i)) ∧
        (dieGet t d).thrott = decide (760 < (dieGet t d).temp) ∧
        (dieGet t d).allowed = min (dieGet s d).share (thermalLimit (dieGet s d).share (dieGet t d).temp)) ∧
      tblGet (fun _ => 0) t.thm.hbm j = w ∧ (stackGet t j).throttle = decide (720 ≤ w) ∧
      Told { s with thm := t.thm, pwr := t.pwr, ms := { s.ms with stackTab := t.ms.stackTab } } t) ∧
    ((dieGet s j).thrott = true → j < 4 → ∃ t, exec (.throttlePersist j w) s = .next t ∧ Told s t ∧ t.fr.fseq ≠ s.fr.fseq) ∧
    ((dieGet s j).thrott = false → exec (.throttlePersist j w) s = .next s) ∧
    (fwUp s = true → zoneOk s z = true → k ∈ x.list → x.broken.getLsbD k = true → 1 < x.list.length → x.spares ≠ 0 →
      ∃ t, exec (.retireSensor z k) s = .next t ∧
        zoneGet t z = { x with list := x.list.filter (fun i => i != k), active := x.active - 1, broken := putBit x.broken k false } ∧
        t = { s with thm := { s.thm with zones := t.thm.zones } }) ∧
    (fwUp s = true → x.broken.getLsbD k = false → ∃ t, exec (.retireSensor z k) s = .next t ∧ Raised s t .thm 6) ∧
    (zoneOk s z = true → x.spares ≠ 0 → x.active < (Zone.fitted z).active → ∃ t, exec (.sensorSpareIn z) s = .next t ∧
      zoneGet t z = { x with list := x.list ++ [(Zone.fitted z).active + (2 - x.spares)], active := x.active + 1, spares := x.spares - 1 } ∧
      t.inv = { s.inv with dirty := true } ∧ Raised { s with thm := t.thm, inv := t.inv } t .inv 0) ∧
    (x.spares = 0 → exec (.sensorSpareIn z) s = .next s)

/-- R457, R459 to R461: a tile that faults stops and is tested; one that passes comes back with zero state; one bad column takes the spare column, more
a spare tile, which enters service when its own check is good; spare rows are used up one by one; the inventory record is written. What goes beyond
the spec's words here is the model's choice: log entries 113, 115. -/
def Obligations.SeedStock : Prop :=
  ∀ (s : State) (e tl cause sp bank row : Nat) (cols : List Nat) (x : Tile), Idle s → tileOf s e = some tl → x = tileGet s tl →
    (underTest s e = false → (engGet s e).owner = none → ∃ t, exec (.tileFault e cause) s = .next t ∧ (engGet t e).st = .stopped ∧
      (engGet t e).uncompleted = [] ∧ tileGet t tl = { x with testing := true, hit := some s.beat.now } ∧
      Told { s with engines := t.engines, inv := { s.inv with tiles := t.inv.tiles }, rmt := t.rmt, mir := t.mir } t ∧
      t.rmt.ops = [] ∧ t.mir.commits = []) ∧
    (x.testing = true → (∀ i < 72, (tileGet s i).checking ≠ some e) →
      (∃ t, exec (.tileSelftestDone e [] false) s = .next t ∧ (tileGet t tl).testing = false ∧ (tileGet t tl).passes = 0 :: x.passes ∧
        engGet t e = (engGet s e).zeroed ∧ (∀ a, winBase e ≤ a → a < winBase e + 0x1C00000 → memGet t.mem a = 0)) ∧
      (oneColumn x cols false = true → ∃ t, exec (.tileSelftestDone e cols false) s = .next t ∧ (tileGet t tl).testing = false ∧
        (tileGet t tl).colmap = true ∧ engGet t e = (engGet s e).zeroed ∧ t.inv.dirty = true ∧ (evGet t .inv).getLsbD 1 = true) ∧
      (∀ r, (spareTiles (tilePut s tl { x with onlyArray := false }) (e / 16)) = sp :: r →
        ∃ t, exec (.tileSelftestDone e cols true) s = .next t ∧ (tileGet t sp).checking = some e ∧ t.mem = s.mem ∧ t.engines = s.engines)) ∧
    ((List.range 72).find? (fun i => (tileGet s i).checking == some e) = some sp → sp ≠ tl → ∃ t,
      exec (.spareTileCheckDone e true) s = .next t ∧ tileOf t e = some sp ∧ (tileGet t tl).failed = true ∧ (tileGet t sp).checking = none ∧
        engGet t e = (engGet s e).zeroed ∧ t.inv.dirty = true) ∧
    (tl < 72 → bank < 48 → x.failed = false → (∀ i < 64, tileOf s i = some tl → (engGet s i).st = .stopped) →
      tblGet (fun _ => 0) x.rowsUsed bank < 8 → ∃ t, exec (.sramRowReplace tl bank row) s = .next t ∧
      tblGet (fun _ => 0) (tileGet t tl).rowsUsed bank = tblGet (fun _ => 0) x.rowsUsed bank + 1 ∧ t.mem = s.mem ∧ t.inv.dirty = true) ∧
    (s.inv.dirty = true → s.flash.writing = none →
      exec (.inventoryWrite true) s = .next { s with inv := { s.inv with dirty := false, seqn := satInc s.inv.seqn, saved := recordOf s } } ∧
      ∃ t, exec (.inventoryWrite false) s = .next t ∧ Raised s t .inv 4)

/-- R446, R465 to R467, R529: a fall of RESET_N, of a rail, or a trip resets the core domain and holds it, with its KIND; the ROM starts when RESET_N
rises with every rail up and no trip; the loss of AUX with core rails up leaves the core domain undefined, and AUX power back resets it. R18 to R20,
R308: a command moves the enabled switches it names that stand elsewhere; a switch that is disabled or moving, or a capacitor that is low, refuses
the whole command; FAB_BYP_EN keeps a switch that is not at rest in pass; a switch arrives where it was sent. What goes beyond the spec's words here
is the model's choice: log entries 116, 117, 121, 147. -/
def Obligations.BoardControl : Prop :=
  (∀ (s : State) (g z : Nat) (hbm : Bool) (b : Board), b = s.board →
    (Up s → b.resetN = true → ∃ t, exec .resetNAssert s = .next t ∧ t.board.held = true ∧ t.board.kind = 1 ∧ t.board.resetN = false ∧
      t.hif = .init ∧ t.engines = [] ∧ t.mem = ⟨[], []⟩ ∧ t.lease = .init ∧ t.boot = .init ∧ t.pending = s.pending ∧ t.flash.cells = s.flash.cells) ∧
    (b.resetN = false → exec .resetNAssert s = .next s) ∧
    (b.resetN = false → b.held = true → b.aux = true → b.pwrGood = 0x7F → b.thermTrip = false → b.railOrder = false → b.romWait = false →
      s.thm.restart = false → exec (.resetNRelease true true []) s =
        .next { s with board := { b with resetN := true, held := false, fref := true }, boot := { s.boot with stage := 2 },
                       dbg := { s.dbg with level := if s.dbg.level = 3 then 0 else s.dbg.level, pins := none } }) ∧
    (g < 7 → b.pwrGood.getLsbD g = true → b.resetN = true → Up s → ∃ t, exec (.pwrGoodFall g) s = .next t ∧ t.board.held = true ∧
      t.board.kind = 3 ∧ t.board.pwrGood = putBit b.pwrGood g false ∧ t.hif = .init ∧ t.engines = [] ∧ t.mem = ⟨[], []⟩) ∧
    (g < 7 → b.pwrGood.getLsbD g = false → b.held = false → exec (.pwrGoodRise g) s =
      .next { s with board := { b with pwrGood := putBit b.pwrGood g true, rising := putBit b.pwrGood g true != 0x7F } }) ∧
    (Up s → b.thermTrip = false → b.aux = true → ∃ t, exec (.thermalTrip hbm z) s = .next t ∧ t.board.held = true ∧ t.board.thermTrip = true ∧
      t.board.kind = 2 ∧ t.thm.restart = true ∧ t.hif = .init ∧ t.engines = [] ∧ t.mem = ⟨[], []⟩) ∧
    (exec .tripRelease s = .next { s with board := { b with thermTrip := false } }) ∧
    (b.aux = true → b.held = true → exec .auxPowerLoss s =
      .next { s with board := { toBypass b with aux := false, holdup := false, coreUndef := !(b.pwrGood.toNat / 2 == 0) } }) ∧
    (b.aux = false → ∃ t, exec .auxPowerUp s = .next t ∧ t.board.aux = true ∧ t.board.held = true ∧ t.board.coreUndef = false ∧ t.board.kind = 0 ∧
      t.hif = .init ∧ t.engines = [] ∧ t.mem = ⟨[], []⟩ ∧ t.board.bypState = b.bypState) ∧
    (b.aux = true → b.held = false → exec .holdupOkRise s = .next { s with board := { b with holdup := true } }) ∧
    (b.holdup = true → b.held = true → exec .holdupLow s = .next { s with board := { b with holdup := false } }) ∧
    (b.holdup = true → Up s → ∃ t, exec .holdupLow s = .next t ∧ t.board = { b with holdup := false } ∧
      Raised { s with board := t.board } t .link 5)) ∧
  (∀ (s : State) (mask k : Nat) (v : W32) (b : Board) (m : BitVec 12), Idle s → b = s.board → m = BitVec.ofNat 12 mask →
    (fwUp s = true → m &&& ~~~b.bypEn = 0 → m &&& b.bypMoving = 0 → b.holdup = true →
      (∀ p < portsOf s, (portGet s p).st = .down) →
      exec (.bypassToBypass mask) s = .next { s with board := { b with
        bypMoving := b.bypMoving ||| (m &&& ~~~b.bypState), bypTarget := b.bypTarget ||| (m &&& ~~~b.bypState) } } ∧
      exec (.bypassToPass mask) s = .next { s with board := { b with
        bypMoving := b.bypMoving ||| (m &&& b.bypState), bypTarget := b.bypTarget &&& ~~~(m &&& b.bypState) } }) ∧
    (fwUp s = true → (m &&& ~~~b.bypEn ≠ 0 ∨ m &&& b.bypMoving ≠ 0 ∨ b.holdup = false) → ∀ c, (c = .bypassToBypass mask ∨ c = .bypassToPass mask) →
      ∃ t, exec c s = .next t ∧ Raised s t .link 6) ∧
    (fwUp s = true → b.bypState ||| b.bypMoving = 0 → exec (.bypEnWrite v) s =
      .next { s with board := { b with bypEn := BitVec.ofNat 12 (v.toNat % 4096) } }) ∧
    (fwUp s = true → b.bypEn = 0xFFF → v = 0 → b.bypState ≠ 0 → ∃ t, exec (.bypEnWrite v) s = .next t ∧ Raised s t .link 6) ∧
    (k < 12 → b.bypMoving.getLsbD k = true → b.bypThen.getLsbD k = false → (∀ p, ringsLocked s p = false) → ∃ t, exec (.bypDone k) s = .next t ∧
      t.board.bypMoving.getLsbD k = false ∧ t.board.bypState.getLsbD k = b.bypTarget.getLsbD k ∧
      (∀ i < 12, i ≠ k → t.board.bypState.getLsbD i = b.bypState.getLsbD i ∧ t.board.bypMoving.getLsbD i = b.bypMoving.getLsbD i) ∧
      Raised { s with board := t.board } t .link 4) ∧
    (b.bypMoving.getLsbD k = false → exec (.bypDone k) s = .next s))

/-- R448, R468 to R471, R474: the ROM waits for FREF and for temperatures of 0 °C, then for an image; BOOT GO has the image verified; one that fails is
reported and counted, one that is good starts the firmware, whose steps of bring-up follow one another to READY. What goes beyond the spec's words
here is the model's choice: log entries 118, 119. -/
def Obligations.BootAndBringup : Prop :=
  ∀ (s : State) (v : W32) (temps : List Int) (r : StageReport) (e : Nat), Up s →
    (s.boot.stage = 1 → s.board.romWait = false → exec .frefLock s =
      .next { s with board := { s.board with fref := true }, boot := { s.boot with stage := 2 } }) ∧
    (s.boot.stage = 1 → s.board.fref = false → ∃ t, exec .frefLockTimeout s = .next t ∧ t.boot.stage = 15 ∧ t.boot.error = 6 ∧ t.mem = s.mem) ∧
    (s.boot.stage = 1 → s.board.romWait = true → s.board.fref = true → (∀ y ∈ temps, 0 ≤ y) → exec (.lowTempRecheck temps) s =
      .next { s with board := { s.board with romWait := false }, boot := { s.boot with stage := 2 } }) ∧
    (s.boot.stage = 1 → s.board.romWait = true → (∃ y ∈ temps, y < 0) → exec (.lowTempRecheck temps) s = .next (emit s .lowTemp)) ∧
    (s.boot.stage = 2 → v.getLsbD 0 = true → exec (.bootGo v) s = .next { s with boot := { s.boot with stage := 3 } }) ∧
    (s.boot.stage ≠ 2 → exec (.bootGo v) s = .next s) ∧
    (s.boot.stage = 3 → e = imageError s.boot.len.toNat (bootBytes s s.boot.len.toNat) → ∃ t, exec .bootVerifyDone s = .next t ∧
      (e ≠ 0 → t.boot = { s.boot with stage := 2, error := e, buf := [], attempts := satInc s.boot.attempts } ∧ t.engines = s.engines) ∧
      (e = 0 → t.boot.stage = 5 ∧ t.boot.buf = [] ∧ t.boot.meas0 = Config.romMeasurement ∧
        t.boot.meas1 = digest (bootBytes s s.boot.len.toNat) ∧ t.boot.meas2 = storeDigest s ∧ fwUp t = true)) ∧
    (Idle s → s.boot.stage = 12 → s.mgt.acked = true → exec (.bringupStepEnd r) s = .next { s with boot := { s.boot with stage := 13 } }) ∧
    (Idle s → s.boot.stage = 12 → s.mgt.acked = false → exec (.bringupStepEnd r) s = .next s) ∧
    (Idle s → s.boot.stage = 10 ∨ s.boot.stage = 11 → exec (.bringupStepEnd r) s =
      .next { s with boot := { s.boot with stage := s.boot.stage + 1 } }) ∧
    (Idle s → s.boot.stage = 9 → ∃ t, exec (.bringupStepEnd r) s = .next t ∧ t.boot.stage = 10 ∧
      ∀ p < portsOf s, (optGet t p).test = some 1 ∧ (optGet t p).fec = false) ∧
    (s.boot.stage = 13 → Idle s → exec (.bringupStepEnd r) s = .next s)

/-- R7, R375, R427, R508, R509, R511, R512, R515: BAR0. A read of up to 8 bytes within one aligned word returns them and changes nothing; a write of 1
to an event bit clears it; a 4-byte write to half of a 64-bit register is refused; the 15 locked registers take no write after the lock, on any
path; a register of the management network takes none from another path. R26, R42, R372, R373, R469: BAR2 reads and writes the package memory at its
base, reads all ones where nothing answers, and before the firmware runs is the boot buffer; BAR4 reads the MSI-X table; an AtomicOp, and what lies
outside, is answered Unsupported Request. What goes beyond the spec's words here is the model's choice: log entries 96, 161. -/
def Obligations.BarAccess : Prop :=
  (∀ (s : State) (off n : Nat) (v : W32) (bytes : List Byte) (path : RegPath) (hv : HostView), FwRuns s →
    (v.getLsbD 0 = true → exec (.hifSetupLock v) s = .next { s with hif := { s.hif with locked := true } }) ∧
    (v.getLsbD 0 = false → exec (.hifSetupLock v) s = .next s) ∧
    (1 ≤ n → off % 8 + n ≤ 8 → off + n ≤ 0x2000000 → exec (.bar0Read off n) s = .next (emit s (.bar (bar0Bytes s off n)))) ∧
    (8 < off % 8 + n → ∃ t, exec (.bar0Read off n) s = .next t ∧ Raised s t .hif 3 ∧ ∃ o, t.out = o ++ [.bar (List.replicate n 0xFF)]) ∧
    (∀ b, Idle s → exec (.regWriteOther (evOffset b) (leBytes 4 v.toNat) true hv) s = .next (evPut s b (evGet s b &&& ~~~v))) ∧
    (Idle s → exec (.regWriteOther 0xE0000 (leBytes 4 v.toNat) true hv) s = .next { s with pwr := { s.pwr with ctrl := v &&& 3 } }) ∧
    (Idle s → off < 0x2000000 → off % 4 = 0 → bytes.length = 4 → is64 s (off / 8 * 8) = true → ∃ t,
      exec (.regWriteOther off bytes true hv) s = .next t ∧ Raised s t .hif 3) ∧
    (∀ en, Idle s → off < 0x2000000 → (en = false ∨ ¬ ((bytes.length = 4 ∧ off % 4 = 0) ∨ (bytes.length = 8 ∧ off % 8 = 0))) → ∃ t,
      exec (.regWriteOther off bytes en hv) s = .next t ∧ Raised s t .hif 3) ∧
    (∀ x : W64, off < 0x2000000 → off % 8 = 0 → is64 s off = false → bytes.length = 8 → x = BitVec.ofNat 64 (leNat bytes) →
      exec (.regWriteOther off bytes true hv) s = .next (fabricRest
        (write32 .host hv (off + 4) (BitVec.ofNat 32 (fld x 32 32)) (write32 .host hv off (BitVec.ofNat 32 (fld x 0 32)) s)))) ∧
    (off < 0x2000000 → off % 4 = 0 → is64 s (off / 8 * 8) = false → bytes.length = 4 → exec (.regWriteOther off bytes true hv) s =
      .next (fabricRest (write32 .host hv off (BitVec.ofNat 32 (leNat bytes)) s))) ∧
    (s.hif.locked = true →
      (∀ a ∈ [0x1000, 0x100C, 0x70000, 0x70008, 0x7000C, 0x70010, 0xE0020, 0xF0000, 0x410000, 0x41001C], bytes.length = 4 →
        barStore path hv a bytes true s = s) ∧
      (∀ a ∈ [0x1010, 0x1018, 0x1020, 0x1028, 0x90068], bytes.length = 8 → barStore path hv a bytes true s = s)) ∧
    (path ≠ .mgmt →
      (∀ a ∈ [0xC0000, 0xC0020, 0xD0010, 0xD0028, 0xD0038, 0xD1000, 0xD1004], bytes.length = 4 → barStore path hv a bytes true s = s) ∧
      (∀ a ∈ [0xD0008, 0xD0020, 0xD1008, 0xD1010, 0xD1040], bytes.length = 8 → barStore path hv a bytes true s = s))) ∧
  (∀ (s : State) (off n a : Nat) (bytes : List Byte) (hv : HostView), Idle s → a = s.hif.bar2Base.toNat + off →
    (fwUp s = true → 0 < n → off + n ≤ 2 ^ 36 → decodeAddr s a = .hbm → hbmOk s a n = true → readFails s a n = false →
      exec (.bar2Read off (.window n)) s = .next (emit s (.bar (memRead s.mem a n)))) ∧
    (fwUp s = true → 0 < n → off + n ≤ 2 ^ 36 → decodeAddr s a = .nothing → ∃ t, exec (.bar2Read off (.window n)) s = .next t ∧ Told s t ∧
      ∃ o, t.out = o ++ [.bar (List.replicate n 0xFF)]) ∧
    (exec (.bar2Read off .atomic) s = .next (emit s .barUnsupported)) ∧
    (fwUp s = true → off + n ≤ 4096 → exec (.bar2Read off (.table n)) s =
      .next (emit s (.bar ((((List.range 256).flatMap (vecBytes s)).drop off).take n)))) ∧
    (fwUp s = true → 4096 ≤ off → 0 < n → (off < 0x8000 ∨ 0x8020 < off + n) → exec (.bar2Read off (.table n)) s = .next (emit s .barUnsupported)) ∧
    (fwUp s = true → bytes ≠ [] → off + bytes.length ≤ 2 ^ 36 → decodeAddr s a = .hbm → hbmOk s a bytes.length = true → Sound s →
      ∃ t, exec (.bar2Write off bytes hv) s = .next t ∧ (∀ j < bytes.length, memGet t.mem (a + j) = bytes.getD j 0) ∧
        (∀ b, (b < a ∨ a + bytes.length ≤ b) → memGet t.mem b = memGet s.mem b) ∧ t = { s with mem := t.mem, coh := t.coh }) ∧
    (fwUp s = false → s.boot.stage ≠ 3 → off + bytes.length ≤ 0x800000 → ∃ t, exec (.bar2Write off bytes hv) s = .next t ∧
      (∀ j < bytes.length, tblGet (fun _ => 0) t.boot.buf (off + j) = bytes.getD j 0) ∧
      (∀ j, (j < off ∨ off + bytes.length ≤ j) → tblGet (fun _ => 0) t.boot.buf j = tblGet (fun _ => 0) s.boot.buf j) ∧
      t = { s with boot := { s.boot with buf := t.boot.buf } }))

/-- R486 to R494, R330: a request that the allow list admits is carried out and answered; REGISTER goes out until it is acknowledged; the records that
wait are sent, sent again, and forgotten when they are acknowledged; telemetry closes its window every 64 beats. What goes beyond the spec's words
here is the model's choice: log entries 123, 124, 125, 126, 127. -/
def Obligations.ManagementPort : Prop :=
  ∀ (s : State) (q : MgmtMsg) (hv : HostView) (n : W32), Idle s → FwRuns s → s.board.aux = true →
    (mgmtAllowed s q = true → q.ver = 1 → q.len.toNat = q.payload.length →
      (q.type = 0x01 → q.payload.length = 12 → mgOk q = true → mgAddr q % 4 = 0 → exec (.regRead q) s =
        .next (reqAnswer q 0 (readWords s (mgAddr q) (mgCount q)) s)) ∧
      (q.type = 0x02 → q.payload.length = 16 → mgCount q = 1 → mgAddr q = 0xD1000 → exec (.regWrite q hv) s =
        .next (reqAnswer q 0 [] { s with mgt := { s.mgt with ip4 := BitVec.ofNat 32 (leAt q.payload 12 4) } })) ∧
      (q.type = 0x03 → q.payload.length = 64 → dOp q.payload = 0x40 →
        (setupCheck s { QTab.zero with privF := true } q.payload).form = true →
        (setupCheck s { QTab.zero with privF := true } q.payload).codes = [] →
        ∃ t o, exec (.descExec q) s = .next t ∧ t.ckt = (cktInstall s q.payload).ckt ∧ t.out = s.out ++ [.mgmt 0 o] ∧ o.status = 0 ∧
          o.payload.length = 32 ∧ t = { s with ckt := t.ckt, free := t.free, out := t.out })) ∧
    (mgmtAllowed s q = false → ∀ c, (c = .regRead q ∧ q.type = 0x01) ∨ (c = .regWrite q hv ∧ q.type = 0x02) ∨ (c = .descExec q ∧ q.type = 0x03) →
      ∃ t, exec c s = .next t ∧ t.mgt = { s.mgt with deny := satInc s.mgt.deny } ∧ Raised s t .mgtNet 1) ∧
    (s.boot.stage = 12 → s.mgt.acked = false → exec .registerSend s =
      .next (sendFm 0x10 (regPayload s) { s with mgt := { s.mgt with flags := regFlags s } })) ∧
    (s.mgt.acked = true → s.mgt.flags = regFlags s → exec .registerSend s = .next s) ∧
    (s.boot.stage = 12 → exec .registerAck s = .next { s with mgt := { s.mgt with acked := true } }) ∧
    (s.boot.stage ≠ 12 → exec .registerAck s = .next s) ∧
    (∀ l, s.mgt.acked = true → l = ((s.mgt.queue.filter (fun x => !x.2)).take 16).map (fun x => x.1) → l ≠ [] → exec .faultSend s =
      .next (sendFm 0x20 (l.foldl (fun b r => b ++ recBytes r) []) { s with mgt := { s.mgt with queue := markSent 16 s.mgt.queue } })) ∧
    (∀ l, s.mgt.acked = true → l = (s.mgt.queue.filter (fun x => x.2)).map (fun x => x.1) → l ≠ [] → l.length < 16 → exec .faultResend s =
      .next (sendFm 0x20 (l.foldl (fun b r => b ++ recBytes r) []) s)) ∧
    (fseqCovers s.fr.fseq n = false → (∀ x ∈ s.mgt.queue, x.2 = false → fseqCovers x.1.fseq n = false) → exec (.faultAck n) s =
      .next { s with mgt := { s.mgt with queue := s.mgt.queue.filter (fun x => !fseqCovers x.1.fseq n) } }) ∧
    (s.beat.now.toNat % 64 = 0 → ∃ t m core detail, exec .telemetryWindow s = .next t ∧ t.out = s.out ++ [.telemetry m core detail] ∧
      m = destOf s.mgt.telAddr ∧ (∀ p < portsOf s, tblGet (fun _ => 0) t.rt.cmap p = cmapWord s p) ∧ t.rt.occ = [] ∧ t.rt.samples = 0 ∧
      t.rt.cmapBeat = s.beat.now ∧ (s.mgt.telLeft ≤ 1 ↔ detail ≠ []) ∧ t = { s with rt := t.rt, mgt := t.mgt, out := t.out, free := t.free }) ∧
    (s.beat.now.toNat % 64 ≠ 0 → exec .telemetryWindow s = .next s)

/-- R487, R495, R496: the SPDM responder. A message whose source the allow list shuts out is DENIED. Otherwise the order of an exchange is held to, each
request has its answer, a request of another code is unsupported. That the messages are laid out as DSP0274 has them is the model's choice. What
goes beyond the spec's words here is the model's choice: log entries 128, 129. -/
def Obligations.AttestationAnswers : Prop :=
  ∀ (s : State) (q : MgmtMsg) (l : List Byte), FwRuns s → s.board.aux = true → l = q.payload → 4 ≤ l.length → q.type = 0x40 → q.ver = 1 →
    q.len.toNat = l.length →
    (mgmtAllowed s q = true →
      (rqCode l = 0x84 → rqByte l 0 = 0x10 → ∃ t r, exec (.getVersion q) s = .next (reqAnswer q 0 r t) ∧
        t = { s with spdm := ⟨true, false, false, l ++ r, [], []⟩ }) ∧
      (∀ c, (c = .getCapabilities q ∧ rqCode l = 0xE1) ∨ (c = .negotiateAlgorithms q ∧ rqCode l = 0xE3) ∨ (c = .getDigests q ∧ rqCode l = 0x81) ∨
          (c = .getCertificate q ∧ rqCode l = 0x82) ∨ (c = .challenge q ∧ rqCode l = 0x83) ∨ (c = .getMeasurements q ∧ rqCode l = 0xE0) →
        s.spdm = ⟨false, false, false, [], [], []⟩ → exec c s = .next (spdmError q 0x04 0 s)) ∧
      (s.spdm.version = true → rqByte l 0 = 0x13 →
        (rqCode l = 0xE1 → l.length = 20 → ∃ r, exec (.getCapabilities q) s = .next (reqAnswer q 0 r
          { s with spdm := { s.spdm with caps := true, algs := false, trans := s.spdm.trans ++ l ++ r } })) ∧
        (rqCode l = 0xE3 → s.spdm.caps = true → 32 ≤ l.length → leAt l 4 2 = l.length → ∃ t r, exec (.negotiateAlgorithms q) s = .next t ∧
          t.out = s.out ++ [.mgmt 0 r] ∧ t = { s with spdm := t.spdm, out := t.out } ∧
          t.spdm = { s.spdm with algs := true, trans := s.spdm.trans ++ l ++ r.payload, chal := [], meas := [] }) ∧
        (s.spdm.algs = true → rqCode l = 0x81 → exec (.getDigests q) s =
          .next (spdmChal q ([0x13, 0x01, 1, 1] ++ sha256 (spdmChain s)) s)) ∧
        (s.spdm.algs = true → rqCode l = 0x82 → ∃ t r, exec (.getCertificate q) s = .next t ∧ t.out = s.out ++ [.mgmt 0 r] ∧
          t = { s with spdm := t.spdm, out := t.out }) ∧
        (s.spdm.algs = true → rqCode l = 0x83 → l.length = 44 → rqByte l 2 = 0 → rqByte l 3 = 0 → ∃ t r, exec (.challenge q) s = .next t ∧
          t.out = s.out ++ [.mgmt 0 r] ∧ (s.boot.attestOk = true → t.spdm = { s.spdm with chal := [], meas := [] }) ∧
          (s.boot.attestOk = false → t.spdm = s.spdm) ∧ t = { s with spdm := t.spdm, out := t.out, free := t.free }) ∧
        (s.spdm.algs = true → rqCode l = 0xE0 → l.length = 12 → rqByte l 2 = 0 → rqByte l 3 = 0 → ∃ t r, exec (.getMeasurements q) s = .next t ∧
          t.out = s.out ++ [.mgmt 0 r] ∧ r.payload.take 5 = [0x13, 0x60, 4, 0, 0] ∧
          t.spdm = { s.spdm with meas := s.spdm.meas ++ l ++ r.payload } ∧ t = { s with spdm := t.spdm, out := t.out, free := t.free })) ∧
      (rqCode l ∉ rqKnown → exec (.spdmUnsupported q) s = .next (spdmError q 0x07 (rqCode l) s))) ∧
    (mgmtAllowed s q = false → ∀ c, c = .getVersion q ∨ c = .getCapabilities q ∨ c = .negotiateAlgorithms q ∨ c = .getDigests q ∨
      c = .getCertificate q ∨ c = .challenge q ∨ c = .getMeasurements q ∨ c = .spdmUnsupported q → exec c s = .next (reqDenied q s))

/-- R497 to R502: the debug port does what its level allows and refuses the rest. A token is checked against the nonce, which is used up; eight failures
lock it out; a tiller is halted, resumed and stepped; the test reset lets the pins go. What goes beyond the spec's words here is the model's choice:
log entries 130, 131, 132, 133. -/
def Obligations.DebugPort : Prop :=
  ∀ (s : State) (e k off : Nat) (v : W64) (hv : HostView) (g : Engine), Idle s → s.board.aux = true → e < 64 → k < 8 → g = engGet s e →
    (s.dbg.check = none → s.dbg.lockout = false → ∃ t, exec .verify s = .next t ∧ t.dbg.check = some (tokenLevel s) ∧
      t.dbg.level = s.dbg.level ∧ t = { s with dbg := t.dbg, free := t.free }) ∧
    (s.dbg.check = none → s.dbg.lockout = true → exec .verify s = .next (emit s (.dbg none))) ∧
    (∀ l, s.dbg.check = some (some l) → ∃ t, exec .verifyDone s = .next t ∧
      t.dbg = { s.dbg with check := none, fails := 0, level := l, hold := s.dbg.hold && decide (2 ≤ l.toNat) } ∧
      Raised { s with dbg := t.dbg } t .dbg 0) ∧
    (s.dbg.check = some none → ∃ t, exec .verifyDone s = .next t ∧
      t.dbg = { s.dbg with check := none, fails := satInc s.dbg.fails, lockout := decide (8 ≤ (satInc s.dbg.fails).toNat) } ∧
      Raised { s with dbg := t.dbg } t .dbg 1) ∧
    (s.dbg.check = none → exec .verifyDone s = .next s) ∧
    (exec .lockoutEnd s = .next { s with dbg := { s.dbg with lockout := false } }) ∧
    (exec .dbgTrstN s = .next { s with dbg := { s.dbg with pins := none } }) ∧
    (off % 8 = 0 → off < 7928 → ∃ t, exec (.dbgTokenWrite off v) s = .next t ∧ tokBytes t off 8 = leBytes 8 v.toNat ∧
      (∀ j, (j < off ∨ off + 8 ≤ j) → tblGet (fun _ => 0) t.dbg.token j = tblGet (fun _ => 0) s.dbg.token j) ∧
      t = { s with dbg := { s.dbg with token := t.dbg.token } }) ∧
    (exec (.dbgRead (BitVec.ofNat 64 (2 ^ 63 + 8))) s = .next (emit s (.dbg (some (BitVec.ofNat 64 (fld s.dbg.nonce 64 64)))))) ∧
    (s.dbg.level = 0 → ∀ c, (c = .relock ∨ c = .holdSet ∨ c = .holdClr ∨ c = .halt e ∨ c = .resume e ∨ c = .stepOne e ∨
      c = .dbgRead (BitVec.ofNat 64 (2 ^ 63 + 0x10008 + 0x100 * e)) ∨ c = .dbgWrite (BitVec.ofNat 64 (2 ^ 63 + 0x10010 + 0x100 * e)) v hv) →
      exec c s = .next (emit s (.dbg none))) ∧
    (1 ≤ s.dbg.level.toNat → exec .relock s = .next { s with dbg := { s.dbg with level := 0, hold := false } } ∧
      (present s e = true → exec (.dbgRead (BitVec.ofNat 64 (2 ^ 63 + 0x10008 + 0x100 * e))) s =
        .next (emit s (.dbg (some (BitVec.ofNat 64 (tState s e))))))) ∧
    (2 ≤ s.dbg.level.toNat →
      (s.dbg.hold = false → ∃ t, exec .holdSet s = .next t ∧ t.dbg = { s.dbg with hold := true } ∧ Raised { s with dbg := t.dbg } t .dbg 3) ∧
      (s.dbg.hold = true → exec .holdSet s = .next s) ∧
      (exec .holdClr s = .next { s with dbg := { s.dbg with hold := false } }) ∧
      (present s e = true → g.st = .running → exec (.halt e) s =
        .next (engPut s e { g with st := .halted, single := false, skip := false, cause := 0 })) ∧
      (present s e = true → g.st = .halted → g.exc = none → g.ending = false →
        exec (.resume e) s = .next (engPut s e { g with st := .running, single := false, skip := g.cause != 0, cause := 0 }) ∧
        exec (.stepOne e) s = .next (engPut s e { g with st := .running, single := true, skip := g.cause != 0, cause := 0 })) ∧
      (∃ t, exec (.dbgWrite (BitVec.ofNat 64 (2 ^ 63 + 0x10010 + 0x100 * e + 8 * k)) v hv) s = .next t ∧
        tblGet (fun _ => 0) (engGet t e).bps k = v &&& bpMask ∧ t = { s with engines := t.engines })) ∧
    (∀ u : State, u.board.coreUndef = false → u.board.aux = true → u.board.resetN = false → u.dbg.level = 3 →
      (∀ p, exec (.extest (some p)) u = .next { u with dbg := { u.dbg with pins := some p } }) ∧
      ∃ t x, exec (.extest none) u = .next t ∧ t = { u with free := u.free + 1, out := u.out ++ [.dbg (some x)] })

/-- A step takes the command at the front of the queue and runs it on the state with the queue's rest; with no command waiting the block idles, which is
the model's choice (log entry 1). -/
def Obligations.StepRunsFront : Prop :=
  ∀ (s : State) (c : Instr), step { s with pending := c :: s.pending } = exec c s ∧ (s.pending = [] → step s = .next s)

/-- R446, R465 to R467, R529: while the AUX rails are lost with core rails up every command but the board's faults, for the core domain is undefined;
while the core domain is held in reset no command but the board's and those answered on the AUX rails changes anything. What goes beyond the spec's
words here is the model's choice: log entries 12, 13. -/
def Obligations.CoreDomainStops : Prop :=
  ∀ (s : State) (c : Instr), boardRow c = false →
    (s.board.coreUndef = true → exec c s = .fault .coreUndefined) ∧
    (s.board.coreUndef = false → s.board.held = true → auxRow c = false → exec c s = .next s)

/-- What stands after the AUX rails have come up, held in reset: no command waits, every unit is at the value its table gives for reset, and no byte of
memory holds anything but 0. The memory of the block right after reset is in its canonical form. What goes beyond the spec's words here is the
model's choice: log entries 11, 14, 16, 17, 18, 19, 20, 21, 22. -/
def Obligations.ResetState : Prop :=
  (State.reset.pending = [] ∧ State.reset.board.held = true ∧ State.reset.board.kind = 0 ∧ State.reset.boot.stage = 1 ∧
  (∀ e, engGet State.reset e = Engine.zero ∧ (engGet State.reset e).st = .stopped) ∧ (∀ a, memGet State.reset.mem a = 0) ∧
  (∀ q, (quGet State.reset q).st = .disabled) ∧ (∀ b, evGet State.reset b = 0) ∧ (∀ p, (portGet State.reset p).st = .down) ∧
  (∀ n, (cktGet State.reset n).st = 0) ∧ (∀ n, (mirGet State.reset n).st = 0) ∧
  State.reset.beat.st = .unsynced ∧ State.reset.beat.now = 0 ∧ State.reset.beat.period = 2 ∧ State.reset.beat.hops = 15 ∧
  State.reset.hif.poll = 500 ∧ State.reset.hif.locked = false ∧ State.reset.shf.en = 15 ∧ State.reset.shf.jrnlTmo = 200 ∧
  State.reset.optics.mMin = 15 ∧ State.reset.optics.slew = 40 ∧ State.reset.ms.ctrl = 0x403 ∧ State.reset.rt.ctrl = 0x41 ∧
  State.reset.rt.ageLim = 15625 ∧ State.reset.rt.drain = 4096 ∧ State.reset.rt.resv = 0x80808080 ∧ State.reset.rmt.tmo = 200 ∧
  State.reset.lease.st = 0 ∧ State.reset.lease.len = 4194304 ∧ State.reset.lease.phase = 0 ∧ State.reset.pwr.cap = 2800 ∧
  State.reset.pwr.droopMv = 40 ∧ State.reset.thm.ctrl = 0xAA ∧ State.reset.dbg.level = 0) ∧
  (State.reset.mem.wf = true ∧ State.reset.mem.cells = [])

/-- R41: whatever command runs, the bytes of package memory stay in the one canonical form in which equal memories are equal data. What goes beyond the
spec's words here is the model's choice: log entry 16. -/
def Obligations.MemoryStaysCanonical : Prop :=
  ∀ s t : State, s.mem.wf = true → step s = .next t → t.mem.wf = true
end

