-- ==== Sys2Proof/Laws/Table.lean ====
section
/-!
SUPPORT. Laws of the sparse tables: read after write, writes that leave the other keys alone, the last of two writes, and the
canonical form kept.
-/

namespace Sys2Proof.Machine

variable {α : Type} (d : Nat → α)

theorem tblGet_ins_same (k : Nat) (v : α) (t : Tbl α) : (∀ e ∈ t, e.1 ≠ k) → tblGet d (tblIns k v t) k = v := by
  induction t with
  | nil => intro _; simp [tblIns, tblGet]
  | cons x r ih =>
    intro h
    have hx : x.1 ≠ k := h x List.mem_cons_self
    have hr : ∀ e ∈ r, e.1 ≠ k := fun e he => h e (List.mem_cons_of_mem _ he)
    by_cases c : k < x.1
    · simp [tblIns, c, tblGet]
    · simp [tblIns, c, tblGet, hx, ih hr]

theorem tblGet_ins_ne (k j : Nat) (v : α) (t : Tbl α) (hj : j ≠ k) : tblGet d (tblIns k v t) j = tblGet d t j := by
  induction t with
  | nil => simp [tblIns, tblGet, hj.symm]
  | cons x r ih =>
    by_cases c : k < x.1
    · simp [tblIns, c, tblGet, hj.symm]
    · simp [tblIns, c, tblGet, ih]

theorem tblGet_filter_ne (k j : Nat) (t : Tbl α) (hj : j ≠ k) : tblGet d (t.filter (fun e => e.1 != k)) j = tblGet d t j := by
  induction t with
  | nil => rfl
  | cons x r ih =>
    by_cases c : x.1 = k
    · have : x.1 ≠ j := fun h => hj (h ▸ c)
      simp [c, tblGet, ih, hj.symm]
    · simp [c, tblGet, ih]

theorem tblGet_filter_same (k : Nat) (t : Tbl α) : tblGet d (t.filter (fun e => e.1 != k)) k = d k := by
  induction t with
  | nil => rfl
  | cons x r ih =>
    by_cases c : x.1 = k
    · simp [c, ih]
    · simp [c, tblGet, ih]

theorem filter_ins (k : Nat) (v : α) (t : Tbl α) (h : ∀ e ∈ t, e.1 ≠ k) : (tblIns k v t).filter (fun e => e.1 != k) = t := by
  induction t with
  | nil => simp [tblIns]
  | cons x r ih =>
    have hx : x.1 ≠ k := h x List.mem_cons_self
    have hr : ∀ e ∈ r, e.1 ≠ k := fun e he => h e (List.mem_cons_of_mem _ he)
    have hf : r.filter (fun e => e.1 != k) = r := List.filter_eq_self.mpr (by simpa using hr)
    by_cases c : k < x.1
    · simp [tblIns, c, hx, hf]
    · simp [tblIns, c, hx, ih hr]

theorem filter_keys (k : Nat) (t : Tbl α) : ∀ e ∈ t.filter (fun e => e.1 != k), e.1 ≠ k := by
  intro e he
  simpa using (List.mem_filter.mp he).2

variable [DecidableEq α]

/-- A key just written reads the value written. -/
@[simp] theorem tblGet_set_same (t : Tbl α) (k : Nat) (v : α) : tblGet d (tblSet d t k v) k = v := by
  unfold tblSet
  by_cases c : v = d k
  · simp [c, tblGet_filter_same]
  · simp [c, tblGet_ins_same d k v _ (filter_keys k t)]

/-- A write leaves every other key alone. -/
theorem tblGet_set_ne (t : Tbl α) (k j : Nat) (v : α) (h : j ≠ k) : tblGet d (tblSet d t k v) j = tblGet d t j := by
  unfold tblSet
  by_cases c : v = d k
  · simp [c, tblGet_filter_ne d k j t h]
  · simp [c, tblGet_ins_ne d k j v _ h, tblGet_filter_ne d k j t h]

/-- What a key reads after a write. -/
theorem tblGet_set (t : Tbl α) (k j : Nat) (v : α) : tblGet d (tblSet d t k v) j = if j = k then v else tblGet d t j := by
  by_cases h : j = k
  · subst h; simp
  · simp [h, tblGet_set_ne d t k j v h]

/-- Of two writes of one key the last counts. -/
@[simp] theorem tblSet_set (t : Tbl α) (k : Nat) (v w : α) : tblSet d (tblSet d t k v) k w = tblSet d t k w := by
  have h : (tblSet d t k v).filter (fun e => e.1 != k) = t.filter (fun e => e.1 != k) := by
    unfold tblSet
    by_cases c : v = d k
    · simp [c]
    · simp only [c, if_false]
      exact filter_ins k v _ (filter_keys k t)
  show (if w = d k then (tblSet d t k v).filter (fun e => e.1 != k) else tblIns k w ((tblSet d t k v).filter (fun e => e.1 != k))) = _
  rw [h]
  rfl

/-! The canonical form. -/

/-- The first key of a table is above `k`, if it has one. -/
def above (k : Nat) : Tbl α → Prop
  | [] => True
  | (b, _) :: _ => k < b

omit [DecidableEq α] in
theorem above_of_mem (k : Nat) (t : Tbl α) (h : ∀ e ∈ t, k < e.1) : above k t := by
  cases t with
  | nil => trivial
  | cons x r => exact h x List.mem_cons_self

/-- The canonical form, said with `above`. -/
theorem tblWf_cons (a : Nat) (v : α) (t : Tbl α) : tblWf d ((a, v) :: t) = true ↔ v ≠ d a ∧ above a t ∧ tblWf d t = true := by
  cases t with
  | nil => simp [tblWf, above]
  | cons x r => simp [tblWf, above, and_assoc]

/-- In a canonical table every later key is larger. -/
theorem tblWf_lt (a : Nat) (v : α) (t : Tbl α) (h : tblWf d ((a, v) :: t) = true) : ∀ e ∈ t, a < e.1 := by
  induction t generalizing a v with
  | nil => intro e he; cases he
  | cons x r ih =>
    obtain ⟨_, hx, ht⟩ := (tblWf_cons d a v _).mp h
    intro e he
    rcases List.mem_cons.mp he with rfl | he
    · exact hx
    · exact Nat.lt_trans hx (ih x.1 x.2 ht e he)

/-- Entries may be dropped. -/
theorem tblWf_filter (p : Nat × α → Bool) (t : Tbl α) (h : tblWf d t = true) : tblWf d (t.filter p) = true := by
  induction t with
  | nil => rfl
  | cons x r ih =>
    obtain ⟨hx, _, hr⟩ := (tblWf_cons d x.1 x.2 r).mp h
    by_cases c : p x = true
    · rw [List.filter_cons_of_pos c]
      refine (tblWf_cons d x.1 x.2 _).mpr ⟨hx, above_of_mem _ _ ?_, ih hr⟩
      intro e he
      exact tblWf_lt d x.1 x.2 r h e (List.mem_filter.mp he).1
    · rw [List.filter_cons_of_neg c]
      exact ih hr

theorem tblWf_ins (k : Nat) (v : α) (t : Tbl α) (h : tblWf d t = true) (hk : ∀ e ∈ t, e.1 ≠ k) (hv : v ≠ d k) :
    tblWf d (tblIns k v t) = true := by
  induction t with
  | nil => simp [tblIns, tblWf, hv]
  | cons x r ih =>
    obtain ⟨hx, ha, hr⟩ := (tblWf_cons d x.1 x.2 r).mp h
    have hxk : x.1 ≠ k := hk x List.mem_cons_self
    by_cases c : k < x.1
    · have e : tblIns k v (x :: r) = (k, v) :: x :: r := by simp [tblIns, c]
      rw [e]
      exact (tblWf_cons d k v _).mpr ⟨hv, c, h⟩
    · have e : tblIns k v (x :: r) = x :: tblIns k v r := by simp [tblIns, c]
      rw [e]
      refine (tblWf_cons d x.1 x.2 _).mpr ⟨hx, ?_, ih hr (fun e he => hk e (List.mem_cons_of_mem _ he))⟩
      cases r with
      | nil => simp [tblIns, above]; omega
      | cons y q =>
        by_cases c2 : k < y.1
        · simp [tblIns, c2, above]; omega
        · simp [tblIns, c2, above]; exact ha

/-- A write keeps the canonical form. -/
theorem tblWf_set (t : Tbl α) (k : Nat) (v : α) (h : tblWf d t = true) : tblWf d (tblSet d t k v) = true := by
  unfold tblSet
  by_cases c : v = d k
  · simp only [c, if_true]; exact tblWf_filter d _ t h
  · simp only [c, if_false]
    exact tblWf_ins d k v _ (tblWf_filter d _ t h) (filter_keys k t) c

/-- The canonical form for another default that agrees on the listed keys. -/
theorem tblWf_congr (d' : Nat → α) (t : Tbl α) (h : tblWf d t = true) (hd : ∀ e ∈ t, d e.1 = d' e.1) : tblWf d' t = true := by
  induction t with
  | nil => rfl
  | cons x r ih =>
    obtain ⟨hx, ha, hr⟩ := (tblWf_cons d x.1 x.2 r).mp h
    refine (tblWf_cons d' x.1 x.2 r).mpr ⟨?_, ha, ih hr (fun e he => hd e (List.mem_cons_of_mem _ he))⟩
    rw [← hd x List.mem_cons_self]; exact hx

end Sys2Proof.Machine
end

