-- ==== Sys2Proof/Laws/State.lean ====
section
/-!
SUPPORT. One law for each field and each update of the state: what the update leaves as it was, and what reads back.
-/

namespace Sys2Proof.Machine

variable (s : State)

@[simp] theorem emit_pending (o : Out) : (emit s o).pending = s.pending := rfl
@[simp] theorem emit_opt (o : Out) : (emit s o).opt = s.opt := rfl
@[simp] theorem emit_board (o : Out) : (emit s o).board = s.board := rfl
@[simp] theorem emit_boot (o : Out) : (emit s o).boot = s.boot := rfl
@[simp] theorem emit_flash (o : Out) : (emit s o).flash = s.flash := rfl
@[simp] theorem emit_hif (o : Out) : (emit s o).hif = s.hif := rfl
@[simp] theorem emit_ev (o : Out) : (emit s o).ev = s.ev := rfl
@[simp] theorem emit_fr (o : Out) : (emit s o).fr = s.fr := rfl
@[simp] theorem emit_msix (o : Out) : (emit s o).msix = s.msix := rfl
@[simp] theorem emit_beat (o : Out) : (emit s o).beat = s.beat := rfl
@[simp] theorem emit_engines (o : Out) : (emit s o).engines = s.engines := rfl
@[simp] theorem emit_mem (o : Out) : (emit s o).mem = s.mem := rfl
@[simp] theorem emit_ms (o : Out) : (emit s o).ms = s.ms := rfl
@[simp] theorem emit_seqs (o : Out) : (emit s o).seqs = s.seqs := rfl
@[simp] theorem emit_coh (o : Out) : (emit s o).coh = s.coh := rfl
@[simp] theorem emit_arb (o : Out) : (emit s o).arb = s.arb := rfl
@[simp] theorem emit_shf (o : Out) : (emit s o).shf = s.shf := rfl
@[simp] theorem emit_optics (o : Out) : (emit s o).optics = s.optics := rfl
@[simp] theorem emit_link (o : Out) : (emit s o).link = s.link := rfl
@[simp] theorem emit_rt (o : Out) : (emit s o).rt = s.rt := rfl
@[simp] theorem emit_ckt (o : Out) : (emit s o).ckt = s.ckt := rfl
@[simp] theorem emit_rmt (o : Out) : (emit s o).rmt = s.rmt := rfl
@[simp] theorem emit_mir (o : Out) : (emit s o).mir = s.mir := rfl
@[simp] theorem emit_fence (o : Out) : (emit s o).fence = s.fence := rfl
@[simp] theorem emit_lease (o : Out) : (emit s o).lease = s.lease := rfl
@[simp] theorem emit_pwr (o : Out) : (emit s o).pwr = s.pwr := rfl
@[simp] theorem emit_thm (o : Out) : (emit s o).thm = s.thm := rfl
@[simp] theorem emit_inv (o : Out) : (emit s o).inv = s.inv := rfl
@[simp] theorem emit_mgt (o : Out) : (emit s o).mgt = s.mgt := rfl
@[simp] theorem emit_spdm (o : Out) : (emit s o).spdm = s.spdm := rfl
@[simp] theorem emit_dbg (o : Out) : (emit s o).dbg = s.dbg := rfl
@[simp] theorem emit_free (o : Out) : (emit s o).free = s.free := rfl

@[simp] theorem evPut_pending (b : EvBlk) (v : W32) : (evPut s b v).pending = s.pending := rfl
@[simp] theorem evPut_opt (b : EvBlk) (v : W32) : (evPut s b v).opt = s.opt := rfl
@[simp] theorem evPut_board (b : EvBlk) (v : W32) : (evPut s b v).board = s.board := rfl
@[simp] theorem evPut_boot (b : EvBlk) (v : W32) : (evPut s b v).boot = s.boot := rfl
@[simp] theorem evPut_flash (b : EvBlk) (v : W32) : (evPut s b v).flash = s.flash := rfl
@[simp] theorem evPut_hif (b : EvBlk) (v : W32) : (evPut s b v).hif = s.hif := rfl
@[simp] theorem evPut_fr (b : EvBlk) (v : W32) : (evPut s b v).fr = s.fr := rfl
@[simp] theorem evPut_msix (b : EvBlk) (v : W32) : (evPut s b v).msix = s.msix := rfl
@[simp] theorem evPut_out (b : EvBlk) (v : W32) : (evPut s b v).out = s.out := rfl
@[simp] theorem evPut_beat (b : EvBlk) (v : W32) : (evPut s b v).beat = s.beat := rfl
@[simp] theorem evPut_engines (b : EvBlk) (v : W32) : (evPut s b v).engines = s.engines := rfl
@[simp] theorem evPut_mem (b : EvBlk) (v : W32) : (evPut s b v).mem = s.mem := rfl
@[simp] theorem evPut_ms (b : EvBlk) (v : W32) : (evPut s b v).ms = s.ms := rfl
@[simp] theorem evPut_seqs (b : EvBlk) (v : W32) : (evPut s b v).seqs = s.seqs := rfl
@[simp] theorem evPut_coh (b : EvBlk) (v : W32) : (evPut s b v).coh = s.coh := rfl
@[simp] theorem evPut_arb (b : EvBlk) (v : W32) : (evPut s b v).arb = s.arb := rfl
@[simp] theorem evPut_shf (b : EvBlk) (v : W32) : (evPut s b v).shf = s.shf := rfl
@[simp] theorem evPut_optics (b : EvBlk) (v : W32) : (evPut s b v).optics = s.optics := rfl
@[simp] theorem evPut_link (b : EvBlk) (v : W32) : (evPut s b v).link = s.link := rfl
@[simp] theorem evPut_rt (b : EvBlk) (v : W32) : (evPut s b v).rt = s.rt := rfl
@[simp] theorem evPut_ckt (b : EvBlk) (v : W32) : (evPut s b v).ckt = s.ckt := rfl
@[simp] theorem evPut_rmt (b : EvBlk) (v : W32) : (evPut s b v).rmt = s.rmt := rfl
@[simp] theorem evPut_mir (b : EvBlk) (v : W32) : (evPut s b v).mir = s.mir := rfl
@[simp] theorem evPut_fence (b : EvBlk) (v : W32) : (evPut s b v).fence = s.fence := rfl
@[simp] theorem evPut_lease (b : EvBlk) (v : W32) : (evPut s b v).lease = s.lease := rfl
@[simp] theorem evPut_pwr (b : EvBlk) (v : W32) : (evPut s b v).pwr = s.pwr := rfl
@[simp] theorem evPut_thm (b : EvBlk) (v : W32) : (evPut s b v).thm = s.thm := rfl
@[simp] theorem evPut_inv (b : EvBlk) (v : W32) : (evPut s b v).inv = s.inv := rfl
@[simp] theorem evPut_mgt (b : EvBlk) (v : W32) : (evPut s b v).mgt = s.mgt := rfl
@[simp] theorem evPut_spdm (b : EvBlk) (v : W32) : (evPut s b v).spdm = s.spdm := rfl
@[simp] theorem evPut_dbg (b : EvBlk) (v : W32) : (evPut s b v).dbg = s.dbg := rfl
@[simp] theorem evPut_free (b : EvBlk) (v : W32) : (evPut s b v).free = s.free := rfl

@[simp] theorem engPut_pending (e : Nat) (x : Engine) : (engPut s e x).pending = s.pending := rfl
@[simp] theorem engPut_opt (e : Nat) (x : Engine) : (engPut s e x).opt = s.opt := rfl
@[simp] theorem engPut_board (e : Nat) (x : Engine) : (engPut s e x).board = s.board := rfl
@[simp] theorem engPut_boot (e : Nat) (x : Engine) : (engPut s e x).boot = s.boot := rfl
@[simp] theorem engPut_flash (e : Nat) (x : Engine) : (engPut s e x).flash = s.flash := rfl
@[simp] theorem engPut_hif (e : Nat) (x : Engine) : (engPut s e x).hif = s.hif := rfl
@[simp] theorem engPut_ev (e : Nat) (x : Engine) : (engPut s e x).ev = s.ev := rfl
@[simp] theorem engPut_fr (e : Nat) (x : Engine) : (engPut s e x).fr = s.fr := rfl
@[simp] theorem engPut_msix (e : Nat) (x : Engine) : (engPut s e x).msix = s.msix := rfl
@[simp] theorem engPut_out (e : Nat) (x : Engine) : (engPut s e x).out = s.out := rfl
@[simp] theorem engPut_beat (e : Nat) (x : Engine) : (engPut s e x).beat = s.beat := rfl
@[simp] theorem engPut_mem (e : Nat) (x : Engine) : (engPut s e x).mem = s.mem := rfl
@[simp] theorem engPut_ms (e : Nat) (x : Engine) : (engPut s e x).ms = s.ms := rfl
@[simp] theorem engPut_seqs (e : Nat) (x : Engine) : (engPut s e x).seqs = s.seqs := rfl
@[simp] theorem engPut_coh (e : Nat) (x : Engine) : (engPut s e x).coh = s.coh := rfl
@[simp] theorem engPut_arb (e : Nat) (x : Engine) : (engPut s e x).arb = s.arb := rfl
@[simp] theorem engPut_shf (e : Nat) (x : Engine) : (engPut s e x).shf = s.shf := rfl
@[simp] theorem engPut_optics (e : Nat) (x : Engine) : (engPut s e x).optics = s.optics := rfl
@[simp] theorem engPut_link (e : Nat) (x : Engine) : (engPut s e x).link = s.link := rfl
@[simp] theorem engPut_rt (e : Nat) (x : Engine) : (engPut s e x).rt = s.rt := rfl
@[simp] theorem engPut_ckt (e : Nat) (x : Engine) : (engPut s e x).ckt = s.ckt := rfl
@[simp] theorem engPut_rmt (e : Nat) (x : Engine) : (engPut s e x).rmt = s.rmt := rfl
@[simp] theorem engPut_mir (e : Nat) (x : Engine) : (engPut s e x).mir = s.mir := rfl
@[simp] theorem engPut_fence (e : Nat) (x : Engine) : (engPut s e x).fence = s.fence := rfl
@[simp] theorem engPut_lease (e : Nat) (x : Engine) : (engPut s e x).lease = s.lease := rfl
@[simp] theorem engPut_pwr (e : Nat) (x : Engine) : (engPut s e x).pwr = s.pwr := rfl
@[simp] theorem engPut_thm (e : Nat) (x : Engine) : (engPut s e x).thm = s.thm := rfl
@[simp] theorem engPut_inv (e : Nat) (x : Engine) : (engPut s e x).inv = s.inv := rfl
@[simp] theorem engPut_mgt (e : Nat) (x : Engine) : (engPut s e x).mgt = s.mgt := rfl
@[simp] theorem engPut_spdm (e : Nat) (x : Engine) : (engPut s e x).spdm = s.spdm := rfl
@[simp] theorem engPut_dbg (e : Nat) (x : Engine) : (engPut s e x).dbg = s.dbg := rfl
@[simp] theorem engPut_free (e : Nat) (x : Engine) : (engPut s e x).free = s.free := rfl

@[simp] theorem placePut_pending (n : Nat) (p : Place) : (placePut s n p).pending = s.pending := rfl
@[simp] theorem placePut_opt (n : Nat) (p : Place) : (placePut s n p).opt = s.opt := rfl
@[simp] theorem placePut_board (n : Nat) (p : Place) : (placePut s n p).board = s.board := rfl
@[simp] theorem placePut_boot (n : Nat) (p : Place) : (placePut s n p).boot = s.boot := rfl
@[simp] theorem placePut_flash (n : Nat) (p : Place) : (placePut s n p).flash = s.flash := rfl
@[simp] theorem placePut_hif (n : Nat) (p : Place) : (placePut s n p).hif = s.hif := rfl
@[simp] theorem placePut_ev (n : Nat) (p : Place) : (placePut s n p).ev = s.ev := rfl
@[simp] theorem placePut_fr (n : Nat) (p : Place) : (placePut s n p).fr = s.fr := rfl
@[simp] theorem placePut_msix (n : Nat) (p : Place) : (placePut s n p).msix = s.msix := rfl
@[simp] theorem placePut_out (n : Nat) (p : Place) : (placePut s n p).out = s.out := rfl
@[simp] theorem placePut_beat (n : Nat) (p : Place) : (placePut s n p).beat = s.beat := rfl
@[simp] theorem placePut_engines (n : Nat) (p : Place) : (placePut s n p).engines = s.engines := rfl
@[simp] theorem placePut_mem (n : Nat) (p : Place) : (placePut s n p).mem = s.mem := rfl
@[simp] theorem placePut_seqs (n : Nat) (p : Place) : (placePut s n p).seqs = s.seqs := rfl
@[simp] theorem placePut_coh (n : Nat) (p : Place) : (placePut s n p).coh = s.coh := rfl
@[simp] theorem placePut_arb (n : Nat) (p : Place) : (placePut s n p).arb = s.arb := rfl
@[simp] theorem placePut_shf (n : Nat) (p : Place) : (placePut s n p).shf = s.shf := rfl
@[simp] theorem placePut_optics (n : Nat) (p : Place) : (placePut s n p).optics = s.optics := rfl
@[simp] theorem placePut_link (n : Nat) (p : Place) : (placePut s n p).link = s.link := rfl
@[simp] theorem placePut_rt (n : Nat) (p : Place) : (placePut s n p).rt = s.rt := rfl
@[simp] theorem placePut_ckt (n : Nat) (p : Place) : (placePut s n p).ckt = s.ckt := rfl
@[simp] theorem placePut_rmt (n : Nat) (p : Place) : (placePut s n p).rmt = s.rmt := rfl
@[simp] theorem placePut_mir (n : Nat) (p : Place) : (placePut s n p).mir = s.mir := rfl
@[simp] theorem placePut_fence (n : Nat) (p : Place) : (placePut s n p).fence = s.fence := rfl
@[simp] theorem placePut_lease (n : Nat) (p : Place) : (placePut s n p).lease = s.lease := rfl
@[simp] theorem placePut_pwr (n : Nat) (p : Place) : (placePut s n p).pwr = s.pwr := rfl
@[simp] theorem placePut_thm (n : Nat) (p : Place) : (placePut s n p).thm = s.thm := rfl
@[simp] theorem placePut_inv (n : Nat) (p : Place) : (placePut s n p).inv = s.inv := rfl
@[simp] theorem placePut_mgt (n : Nat) (p : Place) : (placePut s n p).mgt = s.mgt := rfl
@[simp] theorem placePut_spdm (n : Nat) (p : Place) : (placePut s n p).spdm = s.spdm := rfl
@[simp] theorem placePut_dbg (n : Nat) (p : Place) : (placePut s n p).dbg = s.dbg := rfl
@[simp] theorem placePut_free (n : Nat) (p : Place) : (placePut s n p).free = s.free := rfl

@[simp] theorem stackPut_pending (j : Nat) (k : Stack) : (stackPut s j k).pending = s.pending := rfl
@[simp] theorem stackPut_opt (j : Nat) (k : Stack) : (stackPut s j k).opt = s.opt := rfl
@[simp] theorem stackPut_board (j : Nat) (k : Stack) : (stackPut s j k).board = s.board := rfl
@[simp] theorem stackPut_boot (j : Nat) (k : Stack) : (stackPut s j k).boot = s.boot := rfl
@[simp] theorem stackPut_flash (j : Nat) (k : Stack) : (stackPut s j k).flash = s.flash := rfl
@[simp] theorem stackPut_hif (j : Nat) (k : Stack) : (stackPut s j k).hif = s.hif := rfl
@[simp] theorem stackPut_ev (j : Nat) (k : Stack) : (stackPut s j k).ev = s.ev := rfl
@[simp] theorem stackPut_fr (j : Nat) (k : Stack) : (stackPut s j k).fr = s.fr := rfl
@[simp] theorem stackPut_msix (j : Nat) (k : Stack) : (stackPut s j k).msix = s.msix := rfl
@[simp] theorem stackPut_out (j : Nat) (k : Stack) : (stackPut s j k).out = s.out := rfl
@[simp] theorem stackPut_beat (j : Nat) (k : Stack) : (stackPut s j k).beat = s.beat := rfl
@[simp] theorem stackPut_engines (j : Nat) (k : Stack) : (stackPut s j k).engines = s.engines := rfl
@[simp] theorem stackPut_mem (j : Nat) (k : Stack) : (stackPut s j k).mem = s.mem := rfl
@[simp] theorem stackPut_seqs (j : Nat) (k : Stack) : (stackPut s j k).seqs = s.seqs := rfl
@[simp] theorem stackPut_coh (j : Nat) (k : Stack) : (stackPut s j k).coh = s.coh := rfl
@[simp] theorem stackPut_arb (j : Nat) (k : Stack) : (stackPut s j k).arb = s.arb := rfl
@[simp] theorem stackPut_shf (j : Nat) (k : Stack) : (stackPut s j k).shf = s.shf := rfl
@[simp] theorem stackPut_optics (j : Nat) (k : Stack) : (stackPut s j k).optics = s.optics := rfl
@[simp] theorem stackPut_link (j : Nat) (k : Stack) : (stackPut s j k).link = s.link := rfl
@[simp] theorem stackPut_rt (j : Nat) (k : Stack) : (stackPut s j k).rt = s.rt := rfl
@[simp] theorem stackPut_ckt (j : Nat) (k : Stack) : (stackPut s j k).ckt = s.ckt := rfl
@[simp] theorem stackPut_rmt (j : Nat) (k : Stack) : (stackPut s j k).rmt = s.rmt := rfl
@[simp] theorem stackPut_mir (j : Nat) (k : Stack) : (stackPut s j k).mir = s.mir := rfl
@[simp] theorem stackPut_fence (j : Nat) (k : Stack) : (stackPut s j k).fence = s.fence := rfl
@[simp] theorem stackPut_lease (j : Nat) (k : Stack) : (stackPut s j k).lease = s.lease := rfl
@[simp] theorem stackPut_pwr (j : Nat) (k : Stack) : (stackPut s j k).pwr = s.pwr := rfl
@[simp] theorem stackPut_thm (j : Nat) (k : Stack) : (stackPut s j k).thm = s.thm := rfl
@[simp] theorem stackPut_inv (j : Nat) (k : Stack) : (stackPut s j k).inv = s.inv := rfl
@[simp] theorem stackPut_mgt (j : Nat) (k : Stack) : (stackPut s j k).mgt = s.mgt := rfl
@[simp] theorem stackPut_spdm (j : Nat) (k : Stack) : (stackPut s j k).spdm = s.spdm := rfl
@[simp] theorem stackPut_dbg (j : Nat) (k : Stack) : (stackPut s j k).dbg = s.dbg := rfl
@[simp] theorem stackPut_free (j : Nat) (k : Stack) : (stackPut s j k).free = s.free := rfl

@[simp] theorem memPut_pending (a : Nat) (l : List Byte) : (memPut s a l).pending = s.pending := rfl
@[simp] theorem memPut_opt (a : Nat) (l : List Byte) : (memPut s a l).opt = s.opt := rfl
@[simp] theorem memPut_board (a : Nat) (l : List Byte) : (memPut s a l).board = s.board := rfl
@[simp] theorem memPut_boot (a : Nat) (l : List Byte) : (memPut s a l).boot = s.boot := rfl
@[simp] theorem memPut_flash (a : Nat) (l : List Byte) : (memPut s a l).flash = s.flash := rfl
@[simp] theorem memPut_hif (a : Nat) (l : List Byte) : (memPut s a l).hif = s.hif := rfl
@[simp] theorem memPut_ev (a : Nat) (l : List Byte) : (memPut s a l).ev = s.ev := rfl
@[simp] theorem memPut_fr (a : Nat) (l : List Byte) : (memPut s a l).fr = s.fr := rfl
@[simp] theorem memPut_msix (a : Nat) (l : List Byte) : (memPut s a l).msix = s.msix := rfl
@[simp] theorem memPut_out (a : Nat) (l : List Byte) : (memPut s a l).out = s.out := rfl
@[simp] theorem memPut_beat (a : Nat) (l : List Byte) : (memPut s a l).beat = s.beat := rfl
@[simp] theorem memPut_engines (a : Nat) (l : List Byte) : (memPut s a l).engines = s.engines := rfl
@[simp] theorem memPut_ms (a : Nat) (l : List Byte) : (memPut s a l).ms = s.ms := rfl
@[simp] theorem memPut_seqs (a : Nat) (l : List Byte) : (memPut s a l).seqs = s.seqs := rfl
@[simp] theorem memPut_coh (a : Nat) (l : List Byte) : (memPut s a l).coh = s.coh := rfl
@[simp] theorem memPut_arb (a : Nat) (l : List Byte) : (memPut s a l).arb = s.arb := rfl
@[simp] theorem memPut_shf (a : Nat) (l : List Byte) : (memPut s a l).shf = s.shf := rfl
@[simp] theorem memPut_optics (a : Nat) (l : List Byte) : (memPut s a l).optics = s.optics := rfl
@[simp] theorem memPut_link (a : Nat) (l : List Byte) : (memPut s a l).link = s.link := rfl
@[simp] theorem memPut_rt (a : Nat) (l : List Byte) : (memPut s a l).rt = s.rt := rfl
@[simp] theorem memPut_ckt (a : Nat) (l : List Byte) : (memPut s a l).ckt = s.ckt := rfl
@[simp] theorem memPut_rmt (a : Nat) (l : List Byte) : (memPut s a l).rmt = s.rmt := rfl
@[simp] theorem memPut_mir (a : Nat) (l : List Byte) : (memPut s a l).mir = s.mir := rfl
@[simp] theorem memPut_fence (a : Nat) (l : List Byte) : (memPut s a l).fence = s.fence := rfl
@[simp] theorem memPut_lease (a : Nat) (l : List Byte) : (memPut s a l).lease = s.lease := rfl
@[simp] theorem memPut_pwr (a : Nat) (l : List Byte) : (memPut s a l).pwr = s.pwr := rfl
@[simp] theorem memPut_thm (a : Nat) (l : List Byte) : (memPut s a l).thm = s.thm := rfl
@[simp] theorem memPut_inv (a : Nat) (l : List Byte) : (memPut s a l).inv = s.inv := rfl
@[simp] theorem memPut_mgt (a : Nat) (l : List Byte) : (memPut s a l).mgt = s.mgt := rfl
@[simp] theorem memPut_spdm (a : Nat) (l : List Byte) : (memPut s a l).spdm = s.spdm := rfl
@[simp] theorem memPut_dbg (a : Nat) (l : List Byte) : (memPut s a l).dbg = s.dbg := rfl
@[simp] theorem memPut_free (a : Nat) (l : List Byte) : (memPut s a l).free = s.free := rfl

@[simp] theorem memZero_pending (lo hi : Nat) : (memZero s lo hi).pending = s.pending := rfl
@[simp] theorem memZero_opt (lo hi : Nat) : (memZero s lo hi).opt = s.opt := rfl
@[simp] theorem memZero_board (lo hi : Nat) : (memZero s lo hi).board = s.board := rfl
@[simp] theorem memZero_boot (lo hi : Nat) : (memZero s lo hi).boot = s.boot := rfl
@[simp] theorem memZero_flash (lo hi : Nat) : (memZero s lo hi).flash = s.flash := rfl
@[simp] theorem memZero_hif (lo hi : Nat) : (memZero s lo hi).hif = s.hif := rfl
@[simp] theorem memZero_ev (lo hi : Nat) : (memZero s lo hi).ev = s.ev := rfl
@[simp] theorem memZero_fr (lo hi : Nat) : (memZero s lo hi).fr = s.fr := rfl
@[simp] theorem memZero_msix (lo hi : Nat) : (memZero s lo hi).msix = s.msix := rfl
@[simp] theorem memZero_out (lo hi : Nat) : (memZero s lo hi).out = s.out := rfl
@[simp] theorem memZero_beat (lo hi : Nat) : (memZero s lo hi).beat = s.beat := rfl
@[simp] theorem memZero_engines (lo hi : Nat) : (memZero s lo hi).engines = s.engines := rfl
@[simp] theorem memZero_ms (lo hi : Nat) : (memZero s lo hi).ms = s.ms := rfl
@[simp] theorem memZero_seqs (lo hi : Nat) : (memZero s lo hi).seqs = s.seqs := rfl
@[simp] theorem memZero_coh (lo hi : Nat) : (memZero s lo hi).coh = s.coh := rfl
@[simp] theorem memZero_arb (lo hi : Nat) : (memZero s lo hi).arb = s.arb := rfl
@[simp] theorem memZero_shf (lo hi : Nat) : (memZero s lo hi).shf = s.shf := rfl
@[simp] theorem memZero_optics (lo hi : Nat) : (memZero s lo hi).optics = s.optics := rfl
@[simp] theorem memZero_link (lo hi : Nat) : (memZero s lo hi).link = s.link := rfl
@[simp] theorem memZero_rt (lo hi : Nat) : (memZero s lo hi).rt = s.rt := rfl
@[simp] theorem memZero_ckt (lo hi : Nat) : (memZero s lo hi).ckt = s.ckt := rfl
@[simp] theorem memZero_rmt (lo hi : Nat) : (memZero s lo hi).rmt = s.rmt := rfl
@[simp] theorem memZero_mir (lo hi : Nat) : (memZero s lo hi).mir = s.mir := rfl
@[simp] theorem memZero_fence (lo hi : Nat) : (memZero s lo hi).fence = s.fence := rfl
@[simp] theorem memZero_lease (lo hi : Nat) : (memZero s lo hi).lease = s.lease := rfl
@[simp] theorem memZero_pwr (lo hi : Nat) : (memZero s lo hi).pwr = s.pwr := rfl
@[simp] theorem memZero_thm (lo hi : Nat) : (memZero s lo hi).thm = s.thm := rfl
@[simp] theorem memZero_inv (lo hi : Nat) : (memZero s lo hi).inv = s.inv := rfl
@[simp] theorem memZero_mgt (lo hi : Nat) : (memZero s lo hi).mgt = s.mgt := rfl
@[simp] theorem memZero_spdm (lo hi : Nat) : (memZero s lo hi).spdm = s.spdm := rfl
@[simp] theorem memZero_dbg (lo hi : Nat) : (memZero s lo hi).dbg = s.dbg := rfl
@[simp] theorem memZero_free (lo hi : Nat) : (memZero s lo hi).free = s.free := rfl

@[simp] theorem mirPut_pending (n : Nat) (m : Mirror) : (mirPut s n m).pending = s.pending := rfl
@[simp] theorem mirPut_opt (n : Nat) (m : Mirror) : (mirPut s n m).opt = s.opt := rfl
@[simp] theorem mirPut_board (n : Nat) (m : Mirror) : (mirPut s n m).board = s.board := rfl
@[simp] theorem mirPut_boot (n : Nat) (m : Mirror) : (mirPut s n m).boot = s.boot := rfl
@[simp] theorem mirPut_flash (n : Nat) (m : Mirror) : (mirPut s n m).flash = s.flash := rfl
@[simp] theorem mirPut_hif (n : Nat) (m : Mirror) : (mirPut s n m).hif = s.hif := rfl
@[simp] theorem mirPut_ev (n : Nat) (m : Mirror) : (mirPut s n m).ev = s.ev := rfl
@[simp] theorem mirPut_fr (n : Nat) (m : Mirror) : (mirPut s n m).fr = s.fr := rfl
@[simp] theorem mirPut_msix (n : Nat) (m : Mirror) : (mirPut s n m).msix = s.msix := rfl
@[simp] theorem mirPut_out (n : Nat) (m : Mirror) : (mirPut s n m).out = s.out := rfl
@[simp] theorem mirPut_beat (n : Nat) (m : Mirror) : (mirPut s n m).beat = s.beat := rfl
@[simp] theorem mirPut_engines (n : Nat) (m : Mirror) : (mirPut s n m).engines = s.engines := rfl
@[simp] theorem mirPut_mem (n : Nat) (m : Mirror) : (mirPut s n m).mem = s.mem := rfl
@[simp] theorem mirPut_ms (n : Nat) (m : Mirror) : (mirPut s n m).ms = s.ms := rfl
@[simp] theorem mirPut_seqs (n : Nat) (m : Mirror) : (mirPut s n m).seqs = s.seqs := rfl
@[simp] theorem mirPut_coh (n : Nat) (m : Mirror) : (mirPut s n m).coh = s.coh := rfl
@[simp] theorem mirPut_arb (n : Nat) (m : Mirror) : (mirPut s n m).arb = s.arb := rfl
@[simp] theorem mirPut_shf (n : Nat) (m : Mirror) : (mirPut s n m).shf = s.shf := rfl
@[simp] theorem mirPut_optics (n : Nat) (m : Mirror) : (mirPut s n m).optics = s.optics := rfl
@[simp] theorem mirPut_link (n : Nat) (m : Mirror) : (mirPut s n m).link = s.link := rfl
@[simp] theorem mirPut_rt (n : Nat) (m : Mirror) : (mirPut s n m).rt = s.rt := rfl
@[simp] theorem mirPut_ckt (n : Nat) (m : Mirror) : (mirPut s n m).ckt = s.ckt := rfl
@[simp] theorem mirPut_rmt (n : Nat) (m : Mirror) : (mirPut s n m).rmt = s.rmt := rfl
@[simp] theorem mirPut_fence (n : Nat) (m : Mirror) : (mirPut s n m).fence = s.fence := rfl
@[simp] theorem mirPut_lease (n : Nat) (m : Mirror) : (mirPut s n m).lease = s.lease := rfl
@[simp] theorem mirPut_pwr (n : Nat) (m : Mirror) : (mirPut s n m).pwr = s.pwr := rfl
@[simp] theorem mirPut_thm (n : Nat) (m : Mirror) : (mirPut s n m).thm = s.thm := rfl
@[simp] theorem mirPut_inv (n : Nat) (m : Mirror) : (mirPut s n m).inv = s.inv := rfl
@[simp] theorem mirPut_mgt (n : Nat) (m : Mirror) : (mirPut s n m).mgt = s.mgt := rfl
@[simp] theorem mirPut_spdm (n : Nat) (m : Mirror) : (mirPut s n m).spdm = s.spdm := rfl
@[simp] theorem mirPut_dbg (n : Nat) (m : Mirror) : (mirPut s n m).dbg = s.dbg := rfl
@[simp] theorem mirPut_free (n : Nat) (m : Mirror) : (mirPut s n m).free = s.free := rfl

@[simp] theorem cachePut_pending (d : Nat) (l : List Nat) : (cachePut s d l).pending = s.pending := rfl
@[simp] theorem cachePut_opt (d : Nat) (l : List Nat) : (cachePut s d l).opt = s.opt := rfl
@[simp] theorem cachePut_board (d : Nat) (l : List Nat) : (cachePut s d l).board = s.board := rfl
@[simp] theorem cachePut_boot (d : Nat) (l : List Nat) : (cachePut s d l).boot = s.boot := rfl
@[simp] theorem cachePut_flash (d : Nat) (l : List Nat) : (cachePut s d l).flash = s.flash := rfl
@[simp] theorem cachePut_hif (d : Nat) (l : List Nat) : (cachePut s d l).hif = s.hif := rfl
@[simp] theorem cachePut_ev (d : Nat) (l : List Nat) : (cachePut s d l).ev = s.ev := rfl
@[simp] theorem cachePut_fr (d : Nat) (l : List Nat) : (cachePut s d l).fr = s.fr := rfl
@[simp] theorem cachePut_msix (d : Nat) (l : List Nat) : (cachePut s d l).msix = s.msix := rfl
@[simp] theorem cachePut_out (d : Nat) (l : List Nat) : (cachePut s d l).out = s.out := rfl
@[simp] theorem cachePut_beat (d : Nat) (l : List Nat) : (cachePut s d l).beat = s.beat := rfl
@[simp] theorem cachePut_engines (d : Nat) (l : List Nat) : (cachePut s d l).engines = s.engines := rfl
@[simp] theorem cachePut_mem (d : Nat) (l : List Nat) : (cachePut s d l).mem = s.mem := rfl
@[simp] theorem cachePut_ms (d : Nat) (l : List Nat) : (cachePut s d l).ms = s.ms := rfl
@[simp] theorem cachePut_seqs (d : Nat) (l : List Nat) : (cachePut s d l).seqs = s.seqs := rfl
@[simp] theorem cachePut_arb (d : Nat) (l : List Nat) : (cachePut s d l).arb = s.arb := rfl
@[simp] theorem cachePut_shf (d : Nat) (l : List Nat) : (cachePut s d l).shf = s.shf := rfl
@[simp] theorem cachePut_optics (d : Nat) (l : List Nat) : (cachePut s d l).optics = s.optics := rfl
@[simp] theorem cachePut_link (d : Nat) (l : List Nat) : (cachePut s d l).link = s.link := rfl
@[simp] theorem cachePut_rt (d : Nat) (l : List Nat) : (cachePut s d l).rt = s.rt := rfl
@[simp] theorem cachePut_ckt (d : Nat) (l : List Nat) : (cachePut s d l).ckt = s.ckt := rfl
@[simp] theorem cachePut_rmt (d : Nat) (l : List Nat) : (cachePut s d l).rmt = s.rmt := rfl
@[simp] theorem cachePut_mir (d : Nat) (l : List Nat) : (cachePut s d l).mir = s.mir := rfl
@[simp] theorem cachePut_fence (d : Nat) (l : List Nat) : (cachePut s d l).fence = s.fence := rfl
@[simp] theorem cachePut_lease (d : Nat) (l : List Nat) : (cachePut s d l).lease = s.lease := rfl
@[simp] theorem cachePut_pwr (d : Nat) (l : List Nat) : (cachePut s d l).pwr = s.pwr := rfl
@[simp] theorem cachePut_thm (d : Nat) (l : List Nat) : (cachePut s d l).thm = s.thm := rfl
@[simp] theorem cachePut_inv (d : Nat) (l : List Nat) : (cachePut s d l).inv = s.inv := rfl
@[simp] theorem cachePut_mgt (d : Nat) (l : List Nat) : (cachePut s d l).mgt = s.mgt := rfl
@[simp] theorem cachePut_spdm (d : Nat) (l : List Nat) : (cachePut s d l).spdm = s.spdm := rfl
@[simp] theorem cachePut_dbg (d : Nat) (l : List Nat) : (cachePut s d l).dbg = s.dbg := rfl
@[simp] theorem cachePut_free (d : Nat) (l : List Nat) : (cachePut s d l).free = s.free := rfl

@[simp] theorem dirPut_pending (j : Nat) (l : List (Nat × BitVec 4)) : (dirPut s j l).pending = s.pending := rfl
@[simp] theorem dirPut_opt (j : Nat) (l : List (Nat × BitVec 4)) : (dirPut s j l).opt = s.opt := rfl
@[simp] theorem dirPut_board (j : Nat) (l : List (Nat × BitVec 4)) : (dirPut s j l).board = s.board := rfl
@[simp] theorem dirPut_boot (j : Nat) (l : List (Nat × BitVec 4)) : (dirPut s j l).boot = s.boot := rfl
@[simp] theorem dirPut_flash (j : Nat) (l : List (Nat × BitVec 4)) : (dirPut s j l).flash = s.flash := rfl
@[simp] theorem dirPut_hif (j : Nat) (l : List (Nat × BitVec 4)) : (dirPut s j l).hif = s.hif := rfl
@[simp] theorem dirPut_ev (j : Nat) (l : List (Nat × BitVec 4)) : (dirPut s j l).ev = s.ev := rfl
@[simp] theorem dirPut_fr (j : Nat) (l : List (Nat × BitVec 4)) : (dirPut s j l).fr = s.fr := rfl
@[simp] theorem dirPut_msix (j : Nat) (l : List (Nat × BitVec 4)) : (dirPut s j l).msix = s.msix := rfl
@[simp] theorem dirPut_out (j : Nat) (l : List (Nat × BitVec 4)) : (dirPut s j l).out = s.out := rfl
@[simp] theorem dirPut_beat (j : Nat) (l : List (Nat × BitVec 4)) : (dirPut s j l).beat = s.beat := rfl
@[simp] theorem dirPut_engines (j : Nat) (l : List (Nat × BitVec 4)) : (dirPut s j l).engines = s.engines := rfl
@[simp] theorem dirPut_mem (j : Nat) (l : List (Nat × BitVec 4)) : (dirPut s j l).mem = s.mem := rfl
@[simp] theorem dirPut_ms (j : Nat) (l : List (Nat × BitVec 4)) : (dirPut s j l).ms = s.ms := rfl
@[simp] theorem dirPut_seqs (j : Nat) (l : List (Nat × BitVec 4)) : (dirPut s j l).seqs = s.seqs := rfl
@[simp] theorem dirPut_arb (j : Nat) (l : List (Nat × BitVec 4)) : (dirPut s j l).arb = s.arb := rfl
@[simp] theorem dirPut_shf (j : Nat) (l : List (Nat × BitVec 4)) : (dirPut s j l).shf = s.shf := rfl
@[simp] theorem dirPut_optics (j : Nat) (l : List (Nat × BitVec 4)) : (dirPut s j l).optics = s.optics := rfl
@[simp] theorem dirPut_link (j : Nat) (l : List (Nat × BitVec 4)) : (dirPut s j l).link = s.link := rfl
@[simp] theorem dirPut_rt (j : Nat) (l : List (Nat × BitVec 4)) : (dirPut s j l).rt = s.rt := rfl
@[simp] theorem dirPut_ckt (j : Nat) (l : List (Nat × BitVec 4)) : (dirPut s j l).ckt = s.ckt := rfl
@[simp] theorem dirPut_rmt (j : Nat) (l : List (Nat × BitVec 4)) : (dirPut s j l).rmt = s.rmt := rfl
@[simp] theorem dirPut_mir (j : Nat) (l : List (Nat × BitVec 4)) : (dirPut s j l).mir = s.mir := rfl
@[simp] theorem dirPut_fence (j : Nat) (l : List (Nat × BitVec 4)) : (dirPut s j l).fence = s.fence := rfl
@[simp] theorem dirPut_lease (j : Nat) (l : List (Nat × BitVec 4)) : (dirPut s j l).lease = s.lease := rfl
@[simp] theorem dirPut_pwr (j : Nat) (l : List (Nat × BitVec 4)) : (dirPut s j l).pwr = s.pwr := rfl
@[simp] theorem dirPut_thm (j : Nat) (l : List (Nat × BitVec 4)) : (dirPut s j l).thm = s.thm := rfl
@[simp] theorem dirPut_inv (j : Nat) (l : List (Nat × BitVec 4)) : (dirPut s j l).inv = s.inv := rfl
@[simp] theorem dirPut_mgt (j : Nat) (l : List (Nat × BitVec 4)) : (dirPut s j l).mgt = s.mgt := rfl
@[simp] theorem dirPut_spdm (j : Nat) (l : List (Nat × BitVec 4)) : (dirPut s j l).spdm = s.spdm := rfl
@[simp] theorem dirPut_dbg (j : Nat) (l : List (Nat × BitVec 4)) : (dirPut s j l).dbg = s.dbg := rfl
@[simp] theorem dirPut_free (j : Nat) (l : List (Nat × BitVec 4)) : (dirPut s j l).free = s.free := rfl

@[simp] theorem cqPut_pending (n : Nat) (c : Cq) : (cqPut s n c).pending = s.pending := rfl
@[simp] theorem cqPut_opt (n : Nat) (c : Cq) : (cqPut s n c).opt = s.opt := rfl
@[simp] theorem cqPut_board (n : Nat) (c : Cq) : (cqPut s n c).board = s.board := rfl
@[simp] theorem cqPut_boot (n : Nat) (c : Cq) : (cqPut s n c).boot = s.boot := rfl
@[simp] theorem cqPut_flash (n : Nat) (c : Cq) : (cqPut s n c).flash = s.flash := rfl
@[simp] theorem cqPut_ev (n : Nat) (c : Cq) : (cqPut s n c).ev = s.ev := rfl
@[simp] theorem cqPut_fr (n : Nat) (c : Cq) : (cqPut s n c).fr = s.fr := rfl
@[simp] theorem cqPut_msix (n : Nat) (c : Cq) : (cqPut s n c).msix = s.msix := rfl
@[simp] theorem cqPut_out (n : Nat) (c : Cq) : (cqPut s n c).out = s.out := rfl
@[simp] theorem cqPut_beat (n : Nat) (c : Cq) : (cqPut s n c).beat = s.beat := rfl
@[simp] theorem cqPut_engines (n : Nat) (c : Cq) : (cqPut s n c).engines = s.engines := rfl
@[simp] theorem cqPut_mem (n : Nat) (c : Cq) : (cqPut s n c).mem = s.mem := rfl
@[simp] theorem cqPut_ms (n : Nat) (c : Cq) : (cqPut s n c).ms = s.ms := rfl
@[simp] theorem cqPut_seqs (n : Nat) (c : Cq) : (cqPut s n c).seqs = s.seqs := rfl
@[simp] theorem cqPut_coh (n : Nat) (c : Cq) : (cqPut s n c).coh = s.coh := rfl
@[simp] theorem cqPut_arb (n : Nat) (c : Cq) : (cqPut s n c).arb = s.arb := rfl
@[simp] theorem cqPut_shf (n : Nat) (c : Cq) : (cqPut s n c).shf = s.shf := rfl
@[simp] theorem cqPut_optics (n : Nat) (c : Cq) : (cqPut s n c).optics = s.optics := rfl
@[simp] theorem cqPut_link (n : Nat) (c : Cq) : (cqPut s n c).link = s.link := rfl
@[simp] theorem cqPut_rt (n : Nat) (c : Cq) : (cqPut s n c).rt = s.rt := rfl
@[simp] theorem cqPut_ckt (n : Nat) (c : Cq) : (cqPut s n c).ckt = s.ckt := rfl
@[simp] theorem cqPut_rmt (n : Nat) (c : Cq) : (cqPut s n c).rmt = s.rmt := rfl
@[simp] theorem cqPut_mir (n : Nat) (c : Cq) : (cqPut s n c).mir = s.mir := rfl
@[simp] theorem cqPut_fence (n : Nat) (c : Cq) : (cqPut s n c).fence = s.fence := rfl
@[simp] theorem cqPut_lease (n : Nat) (c : Cq) : (cqPut s n c).lease = s.lease := rfl
@[simp] theorem cqPut_pwr (n : Nat) (c : Cq) : (cqPut s n c).pwr = s.pwr := rfl
@[simp] theorem cqPut_thm (n : Nat) (c : Cq) : (cqPut s n c).thm = s.thm := rfl
@[simp] theorem cqPut_inv (n : Nat) (c : Cq) : (cqPut s n c).inv = s.inv := rfl
@[simp] theorem cqPut_mgt (n : Nat) (c : Cq) : (cqPut s n c).mgt = s.mgt := rfl
@[simp] theorem cqPut_spdm (n : Nat) (c : Cq) : (cqPut s n c).spdm = s.spdm := rfl
@[simp] theorem cqPut_dbg (n : Nat) (c : Cq) : (cqPut s n c).dbg = s.dbg := rfl
@[simp] theorem cqPut_free (n : Nat) (c : Cq) : (cqPut s n c).free = s.free := rfl

@[simp] theorem quPut_pending (q : Nat) (x : Queue) : (quPut s q x).pending = s.pending := rfl
@[simp] theorem quPut_opt (q : Nat) (x : Queue) : (quPut s q x).opt = s.opt := rfl
@[simp] theorem quPut_board (q : Nat) (x : Queue) : (quPut s q x).board = s.board := rfl
@[simp] theorem quPut_boot (q : Nat) (x : Queue) : (quPut s q x).boot = s.boot := rfl
@[simp] theorem quPut_flash (q : Nat) (x : Queue) : (quPut s q x).flash = s.flash := rfl
@[simp] theorem quPut_ev (q : Nat) (x : Queue) : (quPut s q x).ev = s.ev := rfl
@[simp] theorem quPut_fr (q : Nat) (x : Queue) : (quPut s q x).fr = s.fr := rfl
@[simp] theorem quPut_msix (q : Nat) (x : Queue) : (quPut s q x).msix = s.msix := rfl
@[simp] theorem quPut_out (q : Nat) (x : Queue) : (quPut s q x).out = s.out := rfl
@[simp] theorem quPut_beat (q : Nat) (x : Queue) : (quPut s q x).beat = s.beat := rfl
@[simp] theorem quPut_engines (q : Nat) (x : Queue) : (quPut s q x).engines = s.engines := rfl
@[simp] theorem quPut_mem (q : Nat) (x : Queue) : (quPut s q x).mem = s.mem := rfl
@[simp] theorem quPut_ms (q : Nat) (x : Queue) : (quPut s q x).ms = s.ms := rfl
@[simp] theorem quPut_seqs (q : Nat) (x : Queue) : (quPut s q x).seqs = s.seqs := rfl
@[simp] theorem quPut_coh (q : Nat) (x : Queue) : (quPut s q x).coh = s.coh := rfl
@[simp] theorem quPut_arb (q : Nat) (x : Queue) : (quPut s q x).arb = s.arb := rfl
@[simp] theorem quPut_shf (q : Nat) (x : Queue) : (quPut s q x).shf = s.shf := rfl
@[simp] theorem quPut_optics (q : Nat) (x : Queue) : (quPut s q x).optics = s.optics := rfl
@[simp] theorem quPut_link (q : Nat) (x : Queue) : (quPut s q x).link = s.link := rfl
@[simp] theorem quPut_rt (q : Nat) (x : Queue) : (quPut s q x).rt = s.rt := rfl
@[simp] theorem quPut_ckt (q : Nat) (x : Queue) : (quPut s q x).ckt = s.ckt := rfl
@[simp] theorem quPut_rmt (q : Nat) (x : Queue) : (quPut s q x).rmt = s.rmt := rfl
@[simp] theorem quPut_mir (q : Nat) (x : Queue) : (quPut s q x).mir = s.mir := rfl
@[simp] theorem quPut_fence (q : Nat) (x : Queue) : (quPut s q x).fence = s.fence := rfl
@[simp] theorem quPut_lease (q : Nat) (x : Queue) : (quPut s q x).lease = s.lease := rfl
@[simp] theorem quPut_pwr (q : Nat) (x : Queue) : (quPut s q x).pwr = s.pwr := rfl
@[simp] theorem quPut_thm (q : Nat) (x : Queue) : (quPut s q x).thm = s.thm := rfl
@[simp] theorem quPut_inv (q : Nat) (x : Queue) : (quPut s q x).inv = s.inv := rfl
@[simp] theorem quPut_mgt (q : Nat) (x : Queue) : (quPut s q x).mgt = s.mgt := rfl
@[simp] theorem quPut_spdm (q : Nat) (x : Queue) : (quPut s q x).spdm = s.spdm := rfl
@[simp] theorem quPut_dbg (q : Nat) (x : Queue) : (quPut s q x).dbg = s.dbg := rfl
@[simp] theorem quPut_free (q : Nat) (x : Queue) : (quPut s q x).free = s.free := rfl

@[simp] theorem portPut_pending (p : Nat) (x : Port) : (portPut s p x).pending = s.pending := rfl
@[simp] theorem portPut_opt (p : Nat) (x : Port) : (portPut s p x).opt = s.opt := rfl
@[simp] theorem portPut_board (p : Nat) (x : Port) : (portPut s p x).board = s.board := rfl
@[simp] theorem portPut_boot (p : Nat) (x : Port) : (portPut s p x).boot = s.boot := rfl
@[simp] theorem portPut_flash (p : Nat) (x : Port) : (portPut s p x).flash = s.flash := rfl
@[simp] theorem portPut_hif (p : Nat) (x : Port) : (portPut s p x).hif = s.hif := rfl
@[simp] theorem portPut_ev (p : Nat) (x : Port) : (portPut s p x).ev = s.ev := rfl
@[simp] theorem portPut_fr (p : Nat) (x : Port) : (portPut s p x).fr = s.fr := rfl
@[simp] theorem portPut_msix (p : Nat) (x : Port) : (portPut s p x).msix = s.msix := rfl
@[simp] theorem portPut_out (p : Nat) (x : Port) : (portPut s p x).out = s.out := rfl
@[simp] theorem portPut_beat (p : Nat) (x : Port) : (portPut s p x).beat = s.beat := rfl
@[simp] theorem portPut_engines (p : Nat) (x : Port) : (portPut s p x).engines = s.engines := rfl
@[simp] theorem portPut_mem (p : Nat) (x : Port) : (portPut s p x).mem = s.mem := rfl
@[simp] theorem portPut_ms (p : Nat) (x : Port) : (portPut s p x).ms = s.ms := rfl
@[simp] theorem portPut_seqs (p : Nat) (x : Port) : (portPut s p x).seqs = s.seqs := rfl
@[simp] theorem portPut_coh (p : Nat) (x : Port) : (portPut s p x).coh = s.coh := rfl
@[simp] theorem portPut_arb (p : Nat) (x : Port) : (portPut s p x).arb = s.arb := rfl
@[simp] theorem portPut_shf (p : Nat) (x : Port) : (portPut s p x).shf = s.shf := rfl
@[simp] theorem portPut_optics (p : Nat) (x : Port) : (portPut s p x).optics = s.optics := rfl
@[simp] theorem portPut_rt (p : Nat) (x : Port) : (portPut s p x).rt = s.rt := rfl
@[simp] theorem portPut_ckt (p : Nat) (x : Port) : (portPut s p x).ckt = s.ckt := rfl
@[simp] theorem portPut_rmt (p : Nat) (x : Port) : (portPut s p x).rmt = s.rmt := rfl
@[simp] theorem portPut_mir (p : Nat) (x : Port) : (portPut s p x).mir = s.mir := rfl
@[simp] theorem portPut_fence (p : Nat) (x : Port) : (portPut s p x).fence = s.fence := rfl
@[simp] theorem portPut_lease (p : Nat) (x : Port) : (portPut s p x).lease = s.lease := rfl
@[simp] theorem portPut_pwr (p : Nat) (x : Port) : (portPut s p x).pwr = s.pwr := rfl
@[simp] theorem portPut_thm (p : Nat) (x : Port) : (portPut s p x).thm = s.thm := rfl
@[simp] theorem portPut_inv (p : Nat) (x : Port) : (portPut s p x).inv = s.inv := rfl
@[simp] theorem portPut_mgt (p : Nat) (x : Port) : (portPut s p x).mgt = s.mgt := rfl
@[simp] theorem portPut_spdm (p : Nat) (x : Port) : (portPut s p x).spdm = s.spdm := rfl
@[simp] theorem portPut_dbg (p : Nat) (x : Port) : (portPut s p x).dbg = s.dbg := rfl
@[simp] theorem portPut_free (p : Nat) (x : Port) : (portPut s p x).free = s.free := rfl

@[simp] theorem cktPut_pending (n : Nat) (c : Ckt) : (cktPut s n c).pending = s.pending := rfl
@[simp] theorem cktPut_opt (n : Nat) (c : Ckt) : (cktPut s n c).opt = s.opt := rfl
@[simp] theorem cktPut_board (n : Nat) (c : Ckt) : (cktPut s n c).board = s.board := rfl
@[simp] theorem cktPut_boot (n : Nat) (c : Ckt) : (cktPut s n c).boot = s.boot := rfl
@[simp] theorem cktPut_flash (n : Nat) (c : Ckt) : (cktPut s n c).flash = s.flash := rfl
@[simp] theorem cktPut_hif (n : Nat) (c : Ckt) : (cktPut s n c).hif = s.hif := rfl
@[simp] theorem cktPut_ev (n : Nat) (c : Ckt) : (cktPut s n c).ev = s.ev := rfl
@[simp] theorem cktPut_fr (n : Nat) (c : Ckt) : (cktPut s n c).fr = s.fr := rfl
@[simp] theorem cktPut_msix (n : Nat) (c : Ckt) : (cktPut s n c).msix = s.msix := rfl
@[simp] theorem cktPut_out (n : Nat) (c : Ckt) : (cktPut s n c).out = s.out := rfl
@[simp] theorem cktPut_beat (n : Nat) (c : Ckt) : (cktPut s n c).beat = s.beat := rfl
@[simp] theorem cktPut_engines (n : Nat) (c : Ckt) : (cktPut s n c).engines = s.engines := rfl
@[simp] theorem cktPut_mem (n : Nat) (c : Ckt) : (cktPut s n c).mem = s.mem := rfl
@[simp] theorem cktPut_ms (n : Nat) (c : Ckt) : (cktPut s n c).ms = s.ms := rfl
@[simp] theorem cktPut_seqs (n : Nat) (c : Ckt) : (cktPut s n c).seqs = s.seqs := rfl
@[simp] theorem cktPut_coh (n : Nat) (c : Ckt) : (cktPut s n c).coh = s.coh := rfl
@[simp] theorem cktPut_arb (n : Nat) (c : Ckt) : (cktPut s n c).arb = s.arb := rfl
@[simp] theorem cktPut_shf (n : Nat) (c : Ckt) : (cktPut s n c).shf = s.shf := rfl
@[simp] theorem cktPut_optics (n : Nat) (c : Ckt) : (cktPut s n c).optics = s.optics := rfl
@[simp] theorem cktPut_link (n : Nat) (c : Ckt) : (cktPut s n c).link = s.link := rfl
@[simp] theorem cktPut_rt (n : Nat) (c : Ckt) : (cktPut s n c).rt = s.rt := rfl
@[simp] theorem cktPut_rmt (n : Nat) (c : Ckt) : (cktPut s n c).rmt = s.rmt := rfl
@[simp] theorem cktPut_mir (n : Nat) (c : Ckt) : (cktPut s n c).mir = s.mir := rfl
@[simp] theorem cktPut_fence (n : Nat) (c : Ckt) : (cktPut s n c).fence = s.fence := rfl
@[simp] theorem cktPut_lease (n : Nat) (c : Ckt) : (cktPut s n c).lease = s.lease := rfl
@[simp] theorem cktPut_pwr (n : Nat) (c : Ckt) : (cktPut s n c).pwr = s.pwr := rfl
@[simp] theorem cktPut_thm (n : Nat) (c : Ckt) : (cktPut s n c).thm = s.thm := rfl
@[simp] theorem cktPut_inv (n : Nat) (c : Ckt) : (cktPut s n c).inv = s.inv := rfl
@[simp] theorem cktPut_mgt (n : Nat) (c : Ckt) : (cktPut s n c).mgt = s.mgt := rfl
@[simp] theorem cktPut_spdm (n : Nat) (c : Ckt) : (cktPut s n c).spdm = s.spdm := rfl
@[simp] theorem cktPut_dbg (n : Nat) (c : Ckt) : (cktPut s n c).dbg = s.dbg := rfl
@[simp] theorem cktPut_free (n : Nat) (c : Ckt) : (cktPut s n c).free = s.free := rfl

@[simp] theorem sheafPut_pending (d : Nat) (x : Sheaf) : (sheafPut s d x).pending = s.pending := rfl
@[simp] theorem sheafPut_opt (d : Nat) (x : Sheaf) : (sheafPut s d x).opt = s.opt := rfl
@[simp] theorem sheafPut_board (d : Nat) (x : Sheaf) : (sheafPut s d x).board = s.board := rfl
@[simp] theorem sheafPut_boot (d : Nat) (x : Sheaf) : (sheafPut s d x).boot = s.boot := rfl
@[simp] theorem sheafPut_flash (d : Nat) (x : Sheaf) : (sheafPut s d x).flash = s.flash := rfl
@[simp] theorem sheafPut_hif (d : Nat) (x : Sheaf) : (sheafPut s d x).hif = s.hif := rfl
@[simp] theorem sheafPut_ev (d : Nat) (x : Sheaf) : (sheafPut s d x).ev = s.ev := rfl
@[simp] theorem sheafPut_fr (d : Nat) (x : Sheaf) : (sheafPut s d x).fr = s.fr := rfl
@[simp] theorem sheafPut_msix (d : Nat) (x : Sheaf) : (sheafPut s d x).msix = s.msix := rfl
@[simp] theorem sheafPut_out (d : Nat) (x : Sheaf) : (sheafPut s d x).out = s.out := rfl
@[simp] theorem sheafPut_beat (d : Nat) (x : Sheaf) : (sheafPut s d x).beat = s.beat := rfl
@[simp] theorem sheafPut_engines (d : Nat) (x : Sheaf) : (sheafPut s d x).engines = s.engines := rfl
@[simp] theorem sheafPut_mem (d : Nat) (x : Sheaf) : (sheafPut s d x).mem = s.mem := rfl
@[simp] theorem sheafPut_ms (d : Nat) (x : Sheaf) : (sheafPut s d x).ms = s.ms := rfl
@[simp] theorem sheafPut_seqs (d : Nat) (x : Sheaf) : (sheafPut s d x).seqs = s.seqs := rfl
@[simp] theorem sheafPut_coh (d : Nat) (x : Sheaf) : (sheafPut s d x).coh = s.coh := rfl
@[simp] theorem sheafPut_arb (d : Nat) (x : Sheaf) : (sheafPut s d x).arb = s.arb := rfl
@[simp] theorem sheafPut_optics (d : Nat) (x : Sheaf) : (sheafPut s d x).optics = s.optics := rfl
@[simp] theorem sheafPut_link (d : Nat) (x : Sheaf) : (sheafPut s d x).link = s.link := rfl
@[simp] theorem sheafPut_rt (d : Nat) (x : Sheaf) : (sheafPut s d x).rt = s.rt := rfl
@[simp] theorem sheafPut_ckt (d : Nat) (x : Sheaf) : (sheafPut s d x).ckt = s.ckt := rfl
@[simp] theorem sheafPut_rmt (d : Nat) (x : Sheaf) : (sheafPut s d x).rmt = s.rmt := rfl
@[simp] theorem sheafPut_mir (d : Nat) (x : Sheaf) : (sheafPut s d x).mir = s.mir := rfl
@[simp] theorem sheafPut_fence (d : Nat) (x : Sheaf) : (sheafPut s d x).fence = s.fence := rfl
@[simp] theorem sheafPut_lease (d : Nat) (x : Sheaf) : (sheafPut s d x).lease = s.lease := rfl
@[simp] theorem sheafPut_pwr (d : Nat) (x : Sheaf) : (sheafPut s d x).pwr = s.pwr := rfl
@[simp] theorem sheafPut_thm (d : Nat) (x : Sheaf) : (sheafPut s d x).thm = s.thm := rfl
@[simp] theorem sheafPut_inv (d : Nat) (x : Sheaf) : (sheafPut s d x).inv = s.inv := rfl
@[simp] theorem sheafPut_mgt (d : Nat) (x : Sheaf) : (sheafPut s d x).mgt = s.mgt := rfl
@[simp] theorem sheafPut_spdm (d : Nat) (x : Sheaf) : (sheafPut s d x).spdm = s.spdm := rfl
@[simp] theorem sheafPut_dbg (d : Nat) (x : Sheaf) : (sheafPut s d x).dbg = s.dbg := rfl
@[simp] theorem sheafPut_free (d : Nat) (x : Sheaf) : (sheafPut s d x).free = s.free := rfl

@[simp] theorem pbPut_pending (p : Nat) (b : PortBeat) : (pbPut s p b).pending = s.pending := rfl
@[simp] theorem pbPut_opt (p : Nat) (b : PortBeat) : (pbPut s p b).opt = s.opt := rfl
@[simp] theorem pbPut_board (p : Nat) (b : PortBeat) : (pbPut s p b).board = s.board := rfl
@[simp] theorem pbPut_boot (p : Nat) (b : PortBeat) : (pbPut s p b).boot = s.boot := rfl
@[simp] theorem pbPut_flash (p : Nat) (b : PortBeat) : (pbPut s p b).flash = s.flash := rfl
@[simp] theorem pbPut_hif (p : Nat) (b : PortBeat) : (pbPut s p b).hif = s.hif := rfl
@[simp] theorem pbPut_ev (p : Nat) (b : PortBeat) : (pbPut s p b).ev = s.ev := rfl
@[simp] theorem pbPut_fr (p : Nat) (b : PortBeat) : (pbPut s p b).fr = s.fr := rfl
@[simp] theorem pbPut_msix (p : Nat) (b : PortBeat) : (pbPut s p b).msix = s.msix := rfl
@[simp] theorem pbPut_out (p : Nat) (b : PortBeat) : (pbPut s p b).out = s.out := rfl
@[simp] theorem pbPut_engines (p : Nat) (b : PortBeat) : (pbPut s p b).engines = s.engines := rfl
@[simp] theorem pbPut_mem (p : Nat) (b : PortBeat) : (pbPut s p b).mem = s.mem := rfl
@[simp] theorem pbPut_ms (p : Nat) (b : PortBeat) : (pbPut s p b).ms = s.ms := rfl
@[simp] theorem pbPut_seqs (p : Nat) (b : PortBeat) : (pbPut s p b).seqs = s.seqs := rfl
@[simp] theorem pbPut_coh (p : Nat) (b : PortBeat) : (pbPut s p b).coh = s.coh := rfl
@[simp] theorem pbPut_arb (p : Nat) (b : PortBeat) : (pbPut s p b).arb = s.arb := rfl
@[simp] theorem pbPut_shf (p : Nat) (b : PortBeat) : (pbPut s p b).shf = s.shf := rfl
@[simp] theorem pbPut_optics (p : Nat) (b : PortBeat) : (pbPut s p b).optics = s.optics := rfl
@[simp] theorem pbPut_link (p : Nat) (b : PortBeat) : (pbPut s p b).link = s.link := rfl
@[simp] theorem pbPut_rt (p : Nat) (b : PortBeat) : (pbPut s p b).rt = s.rt := rfl
@[simp] theorem pbPut_ckt (p : Nat) (b : PortBeat) : (pbPut s p b).ckt = s.ckt := rfl
@[simp] theorem pbPut_rmt (p : Nat) (b : PortBeat) : (pbPut s p b).rmt = s.rmt := rfl
@[simp] theorem pbPut_mir (p : Nat) (b : PortBeat) : (pbPut s p b).mir = s.mir := rfl
@[simp] theorem pbPut_fence (p : Nat) (b : PortBeat) : (pbPut s p b).fence = s.fence := rfl
@[simp] theorem pbPut_lease (p : Nat) (b : PortBeat) : (pbPut s p b).lease = s.lease := rfl
@[simp] theorem pbPut_pwr (p : Nat) (b : PortBeat) : (pbPut s p b).pwr = s.pwr := rfl
@[simp] theorem pbPut_thm (p : Nat) (b : PortBeat) : (pbPut s p b).thm = s.thm := rfl
@[simp] theorem pbPut_inv (p : Nat) (b : PortBeat) : (pbPut s p b).inv = s.inv := rfl
@[simp] theorem pbPut_mgt (p : Nat) (b : PortBeat) : (pbPut s p b).mgt = s.mgt := rfl
@[simp] theorem pbPut_spdm (p : Nat) (b : PortBeat) : (pbPut s p b).spdm = s.spdm := rfl
@[simp] theorem pbPut_dbg (p : Nat) (b : PortBeat) : (pbPut s p b).dbg = s.dbg := rfl
@[simp] theorem pbPut_free (p : Nat) (b : PortBeat) : (pbPut s p b).free = s.free := rfl

@[simp] theorem loopPut_pending (r : RingId) (x : Ring) : (loopPut s r x).pending = s.pending := rfl
@[simp] theorem loopPut_opt (r : RingId) (x : Ring) : (loopPut s r x).opt = s.opt := rfl
@[simp] theorem loopPut_board (r : RingId) (x : Ring) : (loopPut s r x).board = s.board := rfl
@[simp] theorem loopPut_boot (r : RingId) (x : Ring) : (loopPut s r x).boot = s.boot := rfl
@[simp] theorem loopPut_flash (r : RingId) (x : Ring) : (loopPut s r x).flash = s.flash := rfl
@[simp] theorem loopPut_hif (r : RingId) (x : Ring) : (loopPut s r x).hif = s.hif := rfl
@[simp] theorem loopPut_ev (r : RingId) (x : Ring) : (loopPut s r x).ev = s.ev := rfl
@[simp] theorem loopPut_fr (r : RingId) (x : Ring) : (loopPut s r x).fr = s.fr := rfl
@[simp] theorem loopPut_msix (r : RingId) (x : Ring) : (loopPut s r x).msix = s.msix := rfl
@[simp] theorem loopPut_out (r : RingId) (x : Ring) : (loopPut s r x).out = s.out := rfl
@[simp] theorem loopPut_beat (r : RingId) (x : Ring) : (loopPut s r x).beat = s.beat := rfl
@[simp] theorem loopPut_engines (r : RingId) (x : Ring) : (loopPut s r x).engines = s.engines := rfl
@[simp] theorem loopPut_mem (r : RingId) (x : Ring) : (loopPut s r x).mem = s.mem := rfl
@[simp] theorem loopPut_ms (r : RingId) (x : Ring) : (loopPut s r x).ms = s.ms := rfl
@[simp] theorem loopPut_seqs (r : RingId) (x : Ring) : (loopPut s r x).seqs = s.seqs := rfl
@[simp] theorem loopPut_coh (r : RingId) (x : Ring) : (loopPut s r x).coh = s.coh := rfl
@[simp] theorem loopPut_arb (r : RingId) (x : Ring) : (loopPut s r x).arb = s.arb := rfl
@[simp] theorem loopPut_shf (r : RingId) (x : Ring) : (loopPut s r x).shf = s.shf := rfl
@[simp] theorem loopPut_link (r : RingId) (x : Ring) : (loopPut s r x).link = s.link := rfl
@[simp] theorem loopPut_rt (r : RingId) (x : Ring) : (loopPut s r x).rt = s.rt := rfl
@[simp] theorem loopPut_ckt (r : RingId) (x : Ring) : (loopPut s r x).ckt = s.ckt := rfl
@[simp] theorem loopPut_rmt (r : RingId) (x : Ring) : (loopPut s r x).rmt = s.rmt := rfl
@[simp] theorem loopPut_mir (r : RingId) (x : Ring) : (loopPut s r x).mir = s.mir := rfl
@[simp] theorem loopPut_fence (r : RingId) (x : Ring) : (loopPut s r x).fence = s.fence := rfl
@[simp] theorem loopPut_lease (r : RingId) (x : Ring) : (loopPut s r x).lease = s.lease := rfl
@[simp] theorem loopPut_pwr (r : RingId) (x : Ring) : (loopPut s r x).pwr = s.pwr := rfl
@[simp] theorem loopPut_thm (r : RingId) (x : Ring) : (loopPut s r x).thm = s.thm := rfl
@[simp] theorem loopPut_inv (r : RingId) (x : Ring) : (loopPut s r x).inv = s.inv := rfl
@[simp] theorem loopPut_mgt (r : RingId) (x : Ring) : (loopPut s r x).mgt = s.mgt := rfl
@[simp] theorem loopPut_spdm (r : RingId) (x : Ring) : (loopPut s r x).spdm = s.spdm := rfl
@[simp] theorem loopPut_dbg (r : RingId) (x : Ring) : (loopPut s r x).dbg = s.dbg := rfl
@[simp] theorem loopPut_free (r : RingId) (x : Ring) : (loopPut s r x).free = s.free := rfl

@[simp] theorem optPut_pending (p : Nat) (x : OptPort) : (optPut s p x).pending = s.pending := rfl
@[simp] theorem optPut_opt (p : Nat) (x : OptPort) : (optPut s p x).opt = s.opt := rfl
@[simp] theorem optPut_board (p : Nat) (x : OptPort) : (optPut s p x).board = s.board := rfl
@[simp] theorem optPut_boot (p : Nat) (x : OptPort) : (optPut s p x).boot = s.boot := rfl
@[simp] theorem optPut_flash (p : Nat) (x : OptPort) : (optPut s p x).flash = s.flash := rfl
@[simp] theorem optPut_hif (p : Nat) (x : OptPort) : (optPut s p x).hif = s.hif := rfl
@[simp] theorem optPut_ev (p : Nat) (x : OptPort) : (optPut s p x).ev = s.ev := rfl
@[simp] theorem optPut_fr (p : Nat) (x : OptPort) : (optPut s p x).fr = s.fr := rfl
@[simp] theorem optPut_msix (p : Nat) (x : OptPort) : (optPut s p x).msix = s.msix := rfl
@[simp] theorem optPut_out (p : Nat) (x : OptPort) : (optPut s p x).out = s.out := rfl
@[simp] theorem optPut_beat (p : Nat) (x : OptPort) : (optPut s p x).beat = s.beat := rfl
@[simp] theorem optPut_engines (p : Nat) (x : OptPort) : (optPut s p x).engines = s.engines := rfl
@[simp] theorem optPut_mem (p : Nat) (x : OptPort) : (optPut s p x).mem = s.mem := rfl
@[simp] theorem optPut_ms (p : Nat) (x : OptPort) : (optPut s p x).ms = s.ms := rfl
@[simp] theorem optPut_seqs (p : Nat) (x : OptPort) : (optPut s p x).seqs = s.seqs := rfl
@[simp] theorem optPut_coh (p : Nat) (x : OptPort) : (optPut s p x).coh = s.coh := rfl
@[simp] theorem optPut_arb (p : Nat) (x : OptPort) : (optPut s p x).arb = s.arb := rfl
@[simp] theorem optPut_shf (p : Nat) (x : OptPort) : (optPut s p x).shf = s.shf := rfl
@[simp] theorem optPut_link (p : Nat) (x : OptPort) : (optPut s p x).link = s.link := rfl
@[simp] theorem optPut_rt (p : Nat) (x : OptPort) : (optPut s p x).rt = s.rt := rfl
@[simp] theorem optPut_ckt (p : Nat) (x : OptPort) : (optPut s p x).ckt = s.ckt := rfl
@[simp] theorem optPut_rmt (p : Nat) (x : OptPort) : (optPut s p x).rmt = s.rmt := rfl
@[simp] theorem optPut_mir (p : Nat) (x : OptPort) : (optPut s p x).mir = s.mir := rfl
@[simp] theorem optPut_fence (p : Nat) (x : OptPort) : (optPut s p x).fence = s.fence := rfl
@[simp] theorem optPut_lease (p : Nat) (x : OptPort) : (optPut s p x).lease = s.lease := rfl
@[simp] theorem optPut_pwr (p : Nat) (x : OptPort) : (optPut s p x).pwr = s.pwr := rfl
@[simp] theorem optPut_thm (p : Nat) (x : OptPort) : (optPut s p x).thm = s.thm := rfl
@[simp] theorem optPut_inv (p : Nat) (x : OptPort) : (optPut s p x).inv = s.inv := rfl
@[simp] theorem optPut_mgt (p : Nat) (x : OptPort) : (optPut s p x).mgt = s.mgt := rfl
@[simp] theorem optPut_spdm (p : Nat) (x : OptPort) : (optPut s p x).spdm = s.spdm := rfl
@[simp] theorem optPut_dbg (p : Nat) (x : OptPort) : (optPut s p x).dbg = s.dbg := rfl
@[simp] theorem optPut_free (p : Nat) (x : OptPort) : (optPut s p x).free = s.free := rfl

@[simp] theorem bankPut_pending (n : Nat) (b : Bank) : (bankPut s n b).pending = s.pending := rfl
@[simp] theorem bankPut_opt (n : Nat) (b : Bank) : (bankPut s n b).opt = s.opt := rfl
@[simp] theorem bankPut_board (n : Nat) (b : Bank) : (bankPut s n b).board = s.board := rfl
@[simp] theorem bankPut_boot (n : Nat) (b : Bank) : (bankPut s n b).boot = s.boot := rfl
@[simp] theorem bankPut_flash (n : Nat) (b : Bank) : (bankPut s n b).flash = s.flash := rfl
@[simp] theorem bankPut_hif (n : Nat) (b : Bank) : (bankPut s n b).hif = s.hif := rfl
@[simp] theorem bankPut_ev (n : Nat) (b : Bank) : (bankPut s n b).ev = s.ev := rfl
@[simp] theorem bankPut_fr (n : Nat) (b : Bank) : (bankPut s n b).fr = s.fr := rfl
@[simp] theorem bankPut_msix (n : Nat) (b : Bank) : (bankPut s n b).msix = s.msix := rfl
@[simp] theorem bankPut_out (n : Nat) (b : Bank) : (bankPut s n b).out = s.out := rfl
@[simp] theorem bankPut_beat (n : Nat) (b : Bank) : (bankPut s n b).beat = s.beat := rfl
@[simp] theorem bankPut_engines (n : Nat) (b : Bank) : (bankPut s n b).engines = s.engines := rfl
@[simp] theorem bankPut_mem (n : Nat) (b : Bank) : (bankPut s n b).mem = s.mem := rfl
@[simp] theorem bankPut_ms (n : Nat) (b : Bank) : (bankPut s n b).ms = s.ms := rfl
@[simp] theorem bankPut_seqs (n : Nat) (b : Bank) : (bankPut s n b).seqs = s.seqs := rfl
@[simp] theorem bankPut_coh (n : Nat) (b : Bank) : (bankPut s n b).coh = s.coh := rfl
@[simp] theorem bankPut_arb (n : Nat) (b : Bank) : (bankPut s n b).arb = s.arb := rfl
@[simp] theorem bankPut_shf (n : Nat) (b : Bank) : (bankPut s n b).shf = s.shf := rfl
@[simp] theorem bankPut_link (n : Nat) (b : Bank) : (bankPut s n b).link = s.link := rfl
@[simp] theorem bankPut_rt (n : Nat) (b : Bank) : (bankPut s n b).rt = s.rt := rfl
@[simp] theorem bankPut_ckt (n : Nat) (b : Bank) : (bankPut s n b).ckt = s.ckt := rfl
@[simp] theorem bankPut_rmt (n : Nat) (b : Bank) : (bankPut s n b).rmt = s.rmt := rfl
@[simp] theorem bankPut_mir (n : Nat) (b : Bank) : (bankPut s n b).mir = s.mir := rfl
@[simp] theorem bankPut_fence (n : Nat) (b : Bank) : (bankPut s n b).fence = s.fence := rfl
@[simp] theorem bankPut_lease (n : Nat) (b : Bank) : (bankPut s n b).lease = s.lease := rfl
@[simp] theorem bankPut_pwr (n : Nat) (b : Bank) : (bankPut s n b).pwr = s.pwr := rfl
@[simp] theorem bankPut_thm (n : Nat) (b : Bank) : (bankPut s n b).thm = s.thm := rfl
@[simp] theorem bankPut_inv (n : Nat) (b : Bank) : (bankPut s n b).inv = s.inv := rfl
@[simp] theorem bankPut_mgt (n : Nat) (b : Bank) : (bankPut s n b).mgt = s.mgt := rfl
@[simp] theorem bankPut_spdm (n : Nat) (b : Bank) : (bankPut s n b).spdm = s.spdm := rfl
@[simp] theorem bankPut_dbg (n : Nat) (b : Bank) : (bankPut s n b).dbg = s.dbg := rfl
@[simp] theorem bankPut_free (n : Nat) (b : Bank) : (bankPut s n b).free = s.free := rfl

@[simp] theorem diePut_pending (d : Nat) (x : PwrDie) : (diePut s d x).pending = s.pending := rfl
@[simp] theorem diePut_opt (d : Nat) (x : PwrDie) : (diePut s d x).opt = s.opt := rfl
@[simp] theorem diePut_board (d : Nat) (x : PwrDie) : (diePut s d x).board = s.board := rfl
@[simp] theorem diePut_boot (d : Nat) (x : PwrDie) : (diePut s d x).boot = s.boot := rfl
@[simp] theorem diePut_flash (d : Nat) (x : PwrDie) : (diePut s d x).flash = s.flash := rfl
@[simp] theorem diePut_hif (d : Nat) (x : PwrDie) : (diePut s d x).hif = s.hif := rfl
@[simp] theorem diePut_ev (d : Nat) (x : PwrDie) : (diePut s d x).ev = s.ev := rfl
@[simp] theorem diePut_fr (d : Nat) (x : PwrDie) : (diePut s d x).fr = s.fr := rfl
@[simp] theorem diePut_msix (d : Nat) (x : PwrDie) : (diePut s d x).msix = s.msix := rfl
@[simp] theorem diePut_out (d : Nat) (x : PwrDie) : (diePut s d x).out = s.out := rfl
@[simp] theorem diePut_beat (d : Nat) (x : PwrDie) : (diePut s d x).beat = s.beat := rfl
@[simp] theorem diePut_engines (d : Nat) (x : PwrDie) : (diePut s d x).engines = s.engines := rfl
@[simp] theorem diePut_mem (d : Nat) (x : PwrDie) : (diePut s d x).mem = s.mem := rfl
@[simp] theorem diePut_ms (d : Nat) (x : PwrDie) : (diePut s d x).ms = s.ms := rfl
@[simp] theorem diePut_seqs (d : Nat) (x : PwrDie) : (diePut s d x).seqs = s.seqs := rfl
@[simp] theorem diePut_coh (d : Nat) (x : PwrDie) : (diePut s d x).coh = s.coh := rfl
@[simp] theorem diePut_arb (d : Nat) (x : PwrDie) : (diePut s d x).arb = s.arb := rfl
@[simp] theorem diePut_shf (d : Nat) (x : PwrDie) : (diePut s d x).shf = s.shf := rfl
@[simp] theorem diePut_optics (d : Nat) (x : PwrDie) : (diePut s d x).optics = s.optics := rfl
@[simp] theorem diePut_link (d : Nat) (x : PwrDie) : (diePut s d x).link = s.link := rfl
@[simp] theorem diePut_rt (d : Nat) (x : PwrDie) : (diePut s d x).rt = s.rt := rfl
@[simp] theorem diePut_ckt (d : Nat) (x : PwrDie) : (diePut s d x).ckt = s.ckt := rfl
@[simp] theorem diePut_rmt (d : Nat) (x : PwrDie) : (diePut s d x).rmt = s.rmt := rfl
@[simp] theorem diePut_mir (d : Nat) (x : PwrDie) : (diePut s d x).mir = s.mir := rfl
@[simp] theorem diePut_fence (d : Nat) (x : PwrDie) : (diePut s d x).fence = s.fence := rfl
@[simp] theorem diePut_lease (d : Nat) (x : PwrDie) : (diePut s d x).lease = s.lease := rfl
@[simp] theorem diePut_thm (d : Nat) (x : PwrDie) : (diePut s d x).thm = s.thm := rfl
@[simp] theorem diePut_inv (d : Nat) (x : PwrDie) : (diePut s d x).inv = s.inv := rfl
@[simp] theorem diePut_mgt (d : Nat) (x : PwrDie) : (diePut s d x).mgt = s.mgt := rfl
@[simp] theorem diePut_spdm (d : Nat) (x : PwrDie) : (diePut s d x).spdm = s.spdm := rfl
@[simp] theorem diePut_dbg (d : Nat) (x : PwrDie) : (diePut s d x).dbg = s.dbg := rfl
@[simp] theorem diePut_free (d : Nat) (x : PwrDie) : (diePut s d x).free = s.free := rfl

@[simp] theorem zonePut_pending (z : Nat) (x : Zone) : (zonePut s z x).pending = s.pending := rfl
@[simp] theorem zonePut_opt (z : Nat) (x : Zone) : (zonePut s z x).opt = s.opt := rfl
@[simp] theorem zonePut_board (z : Nat) (x : Zone) : (zonePut s z x).board = s.board := rfl
@[simp] theorem zonePut_boot (z : Nat) (x : Zone) : (zonePut s z x).boot = s.boot := rfl
@[simp] theorem zonePut_flash (z : Nat) (x : Zone) : (zonePut s z x).flash = s.flash := rfl
@[simp] theorem zonePut_hif (z : Nat) (x : Zone) : (zonePut s z x).hif = s.hif := rfl
@[simp] theorem zonePut_ev (z : Nat) (x : Zone) : (zonePut s z x).ev = s.ev := rfl
@[simp] theorem zonePut_fr (z : Nat) (x : Zone) : (zonePut s z x).fr = s.fr := rfl
@[simp] theorem zonePut_msix (z : Nat) (x : Zone) : (zonePut s z x).msix = s.msix := rfl
@[simp] theorem zonePut_out (z : Nat) (x : Zone) : (zonePut s z x).out = s.out := rfl
@[simp] theorem zonePut_beat (z : Nat) (x : Zone) : (zonePut s z x).beat = s.beat := rfl
@[simp] theorem zonePut_engines (z : Nat) (x : Zone) : (zonePut s z x).engines = s.engines := rfl
@[simp] theorem zonePut_mem (z : Nat) (x : Zone) : (zonePut s z x).mem = s.mem := rfl
@[simp] theorem zonePut_ms (z : Nat) (x : Zone) : (zonePut s z x).ms = s.ms := rfl
@[simp] theorem zonePut_seqs (z : Nat) (x : Zone) : (zonePut s z x).seqs = s.seqs := rfl
@[simp] theorem zonePut_coh (z : Nat) (x : Zone) : (zonePut s z x).coh = s.coh := rfl
@[simp] theorem zonePut_arb (z : Nat) (x : Zone) : (zonePut s z x).arb = s.arb := rfl
@[simp] theorem zonePut_shf (z : Nat) (x : Zone) : (zonePut s z x).shf = s.shf := rfl
@[simp] theorem zonePut_optics (z : Nat) (x : Zone) : (zonePut s z x).optics = s.optics := rfl
@[simp] theorem zonePut_link (z : Nat) (x : Zone) : (zonePut s z x).link = s.link := rfl
@[simp] theorem zonePut_rt (z : Nat) (x : Zone) : (zonePut s z x).rt = s.rt := rfl
@[simp] theorem zonePut_ckt (z : Nat) (x : Zone) : (zonePut s z x).ckt = s.ckt := rfl
@[simp] theorem zonePut_rmt (z : Nat) (x : Zone) : (zonePut s z x).rmt = s.rmt := rfl
@[simp] theorem zonePut_mir (z : Nat) (x : Zone) : (zonePut s z x).mir = s.mir := rfl
@[simp] theorem zonePut_fence (z : Nat) (x : Zone) : (zonePut s z x).fence = s.fence := rfl
@[simp] theorem zonePut_lease (z : Nat) (x : Zone) : (zonePut s z x).lease = s.lease := rfl
@[simp] theorem zonePut_pwr (z : Nat) (x : Zone) : (zonePut s z x).pwr = s.pwr := rfl
@[simp] theorem zonePut_inv (z : Nat) (x : Zone) : (zonePut s z x).inv = s.inv := rfl
@[simp] theorem zonePut_mgt (z : Nat) (x : Zone) : (zonePut s z x).mgt = s.mgt := rfl
@[simp] theorem zonePut_spdm (z : Nat) (x : Zone) : (zonePut s z x).spdm = s.spdm := rfl
@[simp] theorem zonePut_dbg (z : Nat) (x : Zone) : (zonePut s z x).dbg = s.dbg := rfl
@[simp] theorem zonePut_free (z : Nat) (x : Zone) : (zonePut s z x).free = s.free := rfl

@[simp] theorem tilePut_pending (t : Nat) (x : Tile) : (tilePut s t x).pending = s.pending := rfl
@[simp] theorem tilePut_opt (t : Nat) (x : Tile) : (tilePut s t x).opt = s.opt := rfl
@[simp] theorem tilePut_board (t : Nat) (x : Tile) : (tilePut s t x).board = s.board := rfl
@[simp] theorem tilePut_boot (t : Nat) (x : Tile) : (tilePut s t x).boot = s.boot := rfl
@[simp] theorem tilePut_flash (t : Nat) (x : Tile) : (tilePut s t x).flash = s.flash := rfl
@[simp] theorem tilePut_hif (t : Nat) (x : Tile) : (tilePut s t x).hif = s.hif := rfl
@[simp] theorem tilePut_ev (t : Nat) (x : Tile) : (tilePut s t x).ev = s.ev := rfl
@[simp] theorem tilePut_fr (t : Nat) (x : Tile) : (tilePut s t x).fr = s.fr := rfl
@[simp] theorem tilePut_msix (t : Nat) (x : Tile) : (tilePut s t x).msix = s.msix := rfl
@[simp] theorem tilePut_out (t : Nat) (x : Tile) : (tilePut s t x).out = s.out := rfl
@[simp] theorem tilePut_beat (t : Nat) (x : Tile) : (tilePut s t x).beat = s.beat := rfl
@[simp] theorem tilePut_engines (t : Nat) (x : Tile) : (tilePut s t x).engines = s.engines := rfl
@[simp] theorem tilePut_mem (t : Nat) (x : Tile) : (tilePut s t x).mem = s.mem := rfl
@[simp] theorem tilePut_ms (t : Nat) (x : Tile) : (tilePut s t x).ms = s.ms := rfl
@[simp] theorem tilePut_seqs (t : Nat) (x : Tile) : (tilePut s t x).seqs = s.seqs := rfl
@[simp] theorem tilePut_coh (t : Nat) (x : Tile) : (tilePut s t x).coh = s.coh := rfl
@[simp] theorem tilePut_arb (t : Nat) (x : Tile) : (tilePut s t x).arb = s.arb := rfl
@[simp] theorem tilePut_shf (t : Nat) (x : Tile) : (tilePut s t x).shf = s.shf := rfl
@[simp] theorem tilePut_optics (t : Nat) (x : Tile) : (tilePut s t x).optics = s.optics := rfl
@[simp] theorem tilePut_link (t : Nat) (x : Tile) : (tilePut s t x).link = s.link := rfl
@[simp] theorem tilePut_rt (t : Nat) (x : Tile) : (tilePut s t x).rt = s.rt := rfl
@[simp] theorem tilePut_ckt (t : Nat) (x : Tile) : (tilePut s t x).ckt = s.ckt := rfl
@[simp] theorem tilePut_rmt (t : Nat) (x : Tile) : (tilePut s t x).rmt = s.rmt := rfl
@[simp] theorem tilePut_mir (t : Nat) (x : Tile) : (tilePut s t x).mir = s.mir := rfl
@[simp] theorem tilePut_fence (t : Nat) (x : Tile) : (tilePut s t x).fence = s.fence := rfl
@[simp] theorem tilePut_lease (t : Nat) (x : Tile) : (tilePut s t x).lease = s.lease := rfl
@[simp] theorem tilePut_pwr (t : Nat) (x : Tile) : (tilePut s t x).pwr = s.pwr := rfl
@[simp] theorem tilePut_thm (t : Nat) (x : Tile) : (tilePut s t x).thm = s.thm := rfl
@[simp] theorem tilePut_mgt (t : Nat) (x : Tile) : (tilePut s t x).mgt = s.mgt := rfl
@[simp] theorem tilePut_spdm (t : Nat) (x : Tile) : (tilePut s t x).spdm = s.spdm := rfl
@[simp] theorem tilePut_dbg (t : Nat) (x : Tile) : (tilePut s t x).dbg = s.dbg := rfl
@[simp] theorem tilePut_free (t : Nat) (x : Tile) : (tilePut s t x).free = s.free := rfl

@[simp] theorem slotPut_pending (i : Nat) (x : Option Slot) : (slotPut s i x).pending = s.pending := rfl
@[simp] theorem slotPut_opt (i : Nat) (x : Option Slot) : (slotPut s i x).opt = s.opt := rfl
@[simp] theorem slotPut_board (i : Nat) (x : Option Slot) : (slotPut s i x).board = s.board := rfl
@[simp] theorem slotPut_boot (i : Nat) (x : Option Slot) : (slotPut s i x).boot = s.boot := rfl
@[simp] theorem slotPut_flash (i : Nat) (x : Option Slot) : (slotPut s i x).flash = s.flash := rfl
@[simp] theorem slotPut_hif (i : Nat) (x : Option Slot) : (slotPut s i x).hif = s.hif := rfl
@[simp] theorem slotPut_ev (i : Nat) (x : Option Slot) : (slotPut s i x).ev = s.ev := rfl
@[simp] theorem slotPut_fr (i : Nat) (x : Option Slot) : (slotPut s i x).fr = s.fr := rfl
@[simp] theorem slotPut_msix (i : Nat) (x : Option Slot) : (slotPut s i x).msix = s.msix := rfl
@[simp] theorem slotPut_out (i : Nat) (x : Option Slot) : (slotPut s i x).out = s.out := rfl
@[simp] theorem slotPut_beat (i : Nat) (x : Option Slot) : (slotPut s i x).beat = s.beat := rfl
@[simp] theorem slotPut_engines (i : Nat) (x : Option Slot) : (slotPut s i x).engines = s.engines := rfl
@[simp] theorem slotPut_mem (i : Nat) (x : Option Slot) : (slotPut s i x).mem = s.mem := rfl
@[simp] theorem slotPut_ms (i : Nat) (x : Option Slot) : (slotPut s i x).ms = s.ms := rfl
@[simp] theorem slotPut_coh (i : Nat) (x : Option Slot) : (slotPut s i x).coh = s.coh := rfl
@[simp] theorem slotPut_arb (i : Nat) (x : Option Slot) : (slotPut s i x).arb = s.arb := rfl
@[simp] theorem slotPut_shf (i : Nat) (x : Option Slot) : (slotPut s i x).shf = s.shf := rfl
@[simp] theorem slotPut_optics (i : Nat) (x : Option Slot) : (slotPut s i x).optics = s.optics := rfl
@[simp] theorem slotPut_link (i : Nat) (x : Option Slot) : (slotPut s i x).link = s.link := rfl
@[simp] theorem slotPut_rt (i : Nat) (x : Option Slot) : (slotPut s i x).rt = s.rt := rfl
@[simp] theorem slotPut_ckt (i : Nat) (x : Option Slot) : (slotPut s i x).ckt = s.ckt := rfl
@[simp] theorem slotPut_rmt (i : Nat) (x : Option Slot) : (slotPut s i x).rmt = s.rmt := rfl
@[simp] theorem slotPut_mir (i : Nat) (x : Option Slot) : (slotPut s i x).mir = s.mir := rfl
@[simp] theorem slotPut_fence (i : Nat) (x : Option Slot) : (slotPut s i x).fence = s.fence := rfl
@[simp] theorem slotPut_lease (i : Nat) (x : Option Slot) : (slotPut s i x).lease = s.lease := rfl
@[simp] theorem slotPut_pwr (i : Nat) (x : Option Slot) : (slotPut s i x).pwr = s.pwr := rfl
@[simp] theorem slotPut_thm (i : Nat) (x : Option Slot) : (slotPut s i x).thm = s.thm := rfl
@[simp] theorem slotPut_inv (i : Nat) (x : Option Slot) : (slotPut s i x).inv = s.inv := rfl
@[simp] theorem slotPut_mgt (i : Nat) (x : Option Slot) : (slotPut s i x).mgt = s.mgt := rfl
@[simp] theorem slotPut_spdm (i : Nat) (x : Option Slot) : (slotPut s i x).spdm = s.spdm := rfl
@[simp] theorem slotPut_dbg (i : Nat) (x : Option Slot) : (slotPut s i x).dbg = s.dbg := rfl
@[simp] theorem slotPut_free (i : Nat) (x : Option Slot) : (slotPut s i x).free = s.free := rfl

@[simp] theorem arbPut_pending (k i : Nat) (a : Arb) : (arbPut s k i a).pending = s.pending := rfl
@[simp] theorem arbPut_opt (k i : Nat) (a : Arb) : (arbPut s k i a).opt = s.opt := rfl
@[simp] theorem arbPut_board (k i : Nat) (a : Arb) : (arbPut s k i a).board = s.board := rfl
@[simp] theorem arbPut_boot (k i : Nat) (a : Arb) : (arbPut s k i a).boot = s.boot := rfl
@[simp] theorem arbPut_flash (k i : Nat) (a : Arb) : (arbPut s k i a).flash = s.flash := rfl
@[simp] theorem arbPut_hif (k i : Nat) (a : Arb) : (arbPut s k i a).hif = s.hif := rfl
@[simp] theorem arbPut_ev (k i : Nat) (a : Arb) : (arbPut s k i a).ev = s.ev := rfl
@[simp] theorem arbPut_fr (k i : Nat) (a : Arb) : (arbPut s k i a).fr = s.fr := rfl
@[simp] theorem arbPut_msix (k i : Nat) (a : Arb) : (arbPut s k i a).msix = s.msix := rfl
@[simp] theorem arbPut_out (k i : Nat) (a : Arb) : (arbPut s k i a).out = s.out := rfl
@[simp] theorem arbPut_beat (k i : Nat) (a : Arb) : (arbPut s k i a).beat = s.beat := rfl
@[simp] theorem arbPut_engines (k i : Nat) (a : Arb) : (arbPut s k i a).engines = s.engines := rfl
@[simp] theorem arbPut_mem (k i : Nat) (a : Arb) : (arbPut s k i a).mem = s.mem := rfl
@[simp] theorem arbPut_ms (k i : Nat) (a : Arb) : (arbPut s k i a).ms = s.ms := rfl
@[simp] theorem arbPut_seqs (k i : Nat) (a : Arb) : (arbPut s k i a).seqs = s.seqs := rfl
@[simp] theorem arbPut_coh (k i : Nat) (a : Arb) : (arbPut s k i a).coh = s.coh := rfl
@[simp] theorem arbPut_shf (k i : Nat) (a : Arb) : (arbPut s k i a).shf = s.shf := rfl
@[simp] theorem arbPut_optics (k i : Nat) (a : Arb) : (arbPut s k i a).optics = s.optics := rfl
@[simp] theorem arbPut_link (k i : Nat) (a : Arb) : (arbPut s k i a).link = s.link := rfl
@[simp] theorem arbPut_rt (k i : Nat) (a : Arb) : (arbPut s k i a).rt = s.rt := rfl
@[simp] theorem arbPut_ckt (k i : Nat) (a : Arb) : (arbPut s k i a).ckt = s.ckt := rfl
@[simp] theorem arbPut_rmt (k i : Nat) (a : Arb) : (arbPut s k i a).rmt = s.rmt := rfl
@[simp] theorem arbPut_mir (k i : Nat) (a : Arb) : (arbPut s k i a).mir = s.mir := rfl
@[simp] theorem arbPut_fence (k i : Nat) (a : Arb) : (arbPut s k i a).fence = s.fence := rfl
@[simp] theorem arbPut_lease (k i : Nat) (a : Arb) : (arbPut s k i a).lease = s.lease := rfl
@[simp] theorem arbPut_pwr (k i : Nat) (a : Arb) : (arbPut s k i a).pwr = s.pwr := rfl
@[simp] theorem arbPut_thm (k i : Nat) (a : Arb) : (arbPut s k i a).thm = s.thm := rfl
@[simp] theorem arbPut_inv (k i : Nat) (a : Arb) : (arbPut s k i a).inv = s.inv := rfl
@[simp] theorem arbPut_mgt (k i : Nat) (a : Arb) : (arbPut s k i a).mgt = s.mgt := rfl
@[simp] theorem arbPut_spdm (k i : Nat) (a : Arb) : (arbPut s k i a).spdm = s.spdm := rfl
@[simp] theorem arbPut_dbg (k i : Nat) (a : Arb) : (arbPut s k i a).dbg = s.dbg := rfl
@[simp] theorem arbPut_free (k i : Nat) (a : Arb) : (arbPut s k i a).free = s.free := rfl

/-! What reads back. -/

@[simp] theorem engGet_put_same (e : Nat) (x : Engine) : engGet (engPut s e x) e = x := tblGet_set_same _ _ _ _
theorem engGet_put_ne (e j' : Nat) (x : Engine) (h : j' ≠ e) : engGet (engPut s e x) j' = engGet s j' := tblGet_set_ne _ _ _ _ _ h
@[simp] theorem engPut_put (e : Nat) (x' y' : Engine) : engPut (engPut s e x') e y' = engPut s e y' := by
  simp [engPut]
@[simp] theorem placeGet_put_same (n : Nat) (p : Place) : placeGet (placePut s n p) n = p := tblGet_set_same _ _ _ _
theorem placeGet_put_ne (n j' : Nat) (p : Place) (h : j' ≠ n) : placeGet (placePut s n p) j' = placeGet s j' := tblGet_set_ne _ _ _ _ _ h
@[simp] theorem placePut_put (n : Nat) (x' y' : Place) : placePut (placePut s n x') n y' = placePut s n y' := by
  simp [placePut]
@[simp] theorem stackGet_put_same (j : Nat) (k : Stack) : stackGet (stackPut s j k) j = k := tblGet_set_same _ _ _ _
theorem stackGet_put_ne (j j' : Nat) (k : Stack) (h : j' ≠ j) : stackGet (stackPut s j k) j' = stackGet s j' := tblGet_set_ne _ _ _ _ _ h
@[simp] theorem stackPut_put (j : Nat) (x' y' : Stack) : stackPut (stackPut s j x') j y' = stackPut s j y' := by
  simp [stackPut]
@[simp] theorem mirGet_put_same (n : Nat) (m : Mirror) : mirGet (mirPut s n m) n = m := tblGet_set_same _ _ _ _
theorem mirGet_put_ne (n j' : Nat) (m : Mirror) (h : j' ≠ n) : mirGet (mirPut s n m) j' = mirGet s j' := tblGet_set_ne _ _ _ _ _ h
@[simp] theorem mirPut_put (n : Nat) (x' y' : Mirror) : mirPut (mirPut s n x') n y' = mirPut s n y' := by
  simp [mirPut]
@[simp] theorem cqGet_put_same (n : Nat) (c : Cq) : cqGet (cqPut s n c) n = c := tblGet_set_same _ _ _ _
theorem cqGet_put_ne (n j' : Nat) (c : Cq) (h : j' ≠ n) : cqGet (cqPut s n c) j' = cqGet s j' := tblGet_set_ne _ _ _ _ _ h
@[simp] theorem cqPut_put (n : Nat) (x' y' : Cq) : cqPut (cqPut s n x') n y' = cqPut s n y' := by
  simp [cqPut]
@[simp] theorem quGet_put_same (q : Nat) (x : Queue) : quGet (quPut s q x) q = x := tblGet_set_same _ _ _ _
theorem quGet_put_ne (q j' : Nat) (x : Queue) (h : j' ≠ q) : quGet (quPut s q x) j' = quGet s j' := tblGet_set_ne _ _ _ _ _ h
@[simp] theorem quPut_put (q : Nat) (x' y' : Queue) : quPut (quPut s q x') q y' = quPut s q y' := by
  simp [quPut]
@[simp] theorem portGet_put_same (p : Nat) (x : Port) : portGet (portPut s p x) p = x := tblGet_set_same _ _ _ _
theorem portGet_put_ne (p j' : Nat) (x : Port) (h : j' ≠ p) : portGet (portPut s p x) j' = portGet s j' := tblGet_set_ne _ _ _ _ _ h
@[simp] theorem portPut_put (p : Nat) (x' y' : Port) : portPut (portPut s p x') p y' = portPut s p y' := by
  simp [portPut]
@[simp] theorem cktGet_put_same (n : Nat) (c : Ckt) : cktGet (cktPut s n c) n = c := tblGet_set_same _ _ _ _
theorem cktGet_put_ne (n j' : Nat) (c : Ckt) (h : j' ≠ n) : cktGet (cktPut s n c) j' = cktGet s j' := tblGet_set_ne _ _ _ _ _ h
@[simp] theorem cktPut_put (n : Nat) (x' y' : Ckt) : cktPut (cktPut s n x') n y' = cktPut s n y' := by
  simp [cktPut]
@[simp] theorem sheafGet_put_same (d : Nat) (x : Sheaf) : sheafGet (sheafPut s d x) d = x := tblGet_set_same _ _ _ _
theorem sheafGet_put_ne (d j' : Nat) (x : Sheaf) (h : j' ≠ d) : sheafGet (sheafPut s d x) j' = sheafGet s j' := tblGet_set_ne _ _ _ _ _ h
@[simp] theorem sheafPut_put (d : Nat) (x' y' : Sheaf) : sheafPut (sheafPut s d x') d y' = sheafPut s d y' := by
  simp [sheafPut]
@[simp] theorem pbGet_put_same (p : Nat) (b : PortBeat) : pbGet (pbPut s p b) p = b := tblGet_set_same _ _ _ _
theorem pbGet_put_ne (p j' : Nat) (b : PortBeat) (h : j' ≠ p) : pbGet (pbPut s p b) j' = pbGet s j' := tblGet_set_ne _ _ _ _ _ h
@[simp] theorem pbPut_put (p : Nat) (x' y' : PortBeat) : pbPut (pbPut s p x') p y' = pbPut s p y' := by
  simp [pbPut]
@[simp] theorem optGet_put_same (p : Nat) (x : OptPort) : optGet (optPut s p x) p = x := tblGet_set_same _ _ _ _
theorem optGet_put_ne (p j' : Nat) (x : OptPort) (h : j' ≠ p) : optGet (optPut s p x) j' = optGet s j' := tblGet_set_ne _ _ _ _ _ h
@[simp] theorem optPut_put (p : Nat) (x' y' : OptPort) : optPut (optPut s p x') p y' = optPut s p y' := by
  simp [optPut]
@[simp] theorem bankGet_put_same (n : Nat) (b : Bank) : bankGet (bankPut s n b) n = b := tblGet_set_same _ _ _ _
theorem bankGet_put_ne (n j' : Nat) (b : Bank) (h : j' ≠ n) : bankGet (bankPut s n b) j' = bankGet s j' := tblGet_set_ne _ _ _ _ _ h
@[simp] theorem bankPut_put (n : Nat) (x' y' : Bank) : bankPut (bankPut s n x') n y' = bankPut s n y' := by
  simp [bankPut]
@[simp] theorem dieGet_put_same (d : Nat) (x : PwrDie) : dieGet (diePut s d x) d = x := tblGet_set_same _ _ _ _
theorem dieGet_put_ne (d j' : Nat) (x : PwrDie) (h : j' ≠ d) : dieGet (diePut s d x) j' = dieGet s j' := tblGet_set_ne _ _ _ _ _ h
@[simp] theorem diePut_put (d : Nat) (x' y' : PwrDie) : diePut (diePut s d x') d y' = diePut s d y' := by
  simp [diePut]
@[simp] theorem tileGet_put_same (t : Nat) (x : Tile) : tileGet (tilePut s t x) t = x := tblGet_set_same _ _ _ _
theorem tileGet_put_ne (t j' : Nat) (x : Tile) (h : j' ≠ t) : tileGet (tilePut s t x) j' = tileGet s j' := tblGet_set_ne _ _ _ _ _ h
@[simp] theorem tilePut_put (t : Nat) (x' y' : Tile) : tilePut (tilePut s t x') t y' = tilePut s t y' := by
  simp [tilePut]

@[simp] theorem evGet_put_same (b : EvBlk) (v : W32) : evGet (evPut s b v) b = v := tblGet_set_same _ _ _ _
theorem evKey_inj (a b : EvBlk) (h : evKey a = evKey b) : a = b := by cases a <;> cases b <;> first | rfl | cases h
theorem evGet_put_ne (b c : EvBlk) (v : W32) (h : c ≠ b) : evGet (evPut s b v) c = evGet s c :=
  tblGet_set_ne _ _ _ _ _ (fun e => h (evKey_inj c b e))

end Sys2Proof.Machine
end

