-- ==== Sys2Proof/Laws/Core.lean ====
section
/-!
SUPPORT. Laws of the shared operations of the control core: what a command answers, when nothing is left to settle, what a dispatch does.
-/

namespace Sys2Proof.Machine

/-- Everything `run` can answer. -/
theorem run_next (s t : State) (f : State → State) (h : run s f = .next t) :
    s.board.coreUndef = false ∧ ((s.board.held = true ∧ t = s) ∨ (s.board.held = false ∧ t = f s)) := by
  unfold run at h
  cases hc : s.board.coreUndef <;> cases hh : s.board.held <;> simp [hc, hh] at h ⊢ <;> exact h.symm

/-- `run` while the core domain runs. -/
theorem run_up (s : State) (f : State → State) (h : Up s) : run s f = .next (f s) := by
  simp [run, h.1, h.2]

theorem foldl_id {α : Type} (l : List α) (f : State → α → State) (s : State) (h : ∀ x ∈ l, f s x = s) : l.foldl f s = s := by
  induction l with
  | nil => rfl
  | cons x r ih =>
    rw [List.foldl_cons, h x List.mem_cons_self]
    exact ih (fun y hy => h y (List.mem_cons_of_mem _ hy))

/-- With nothing due, `settle` changes nothing. -/
theorem settle_id (s : State) (h : NoneDue s) : settle s = s := by
  unfold settle
  apply foldl_id
  intro d hd
  unfold settleOne
  rw [if_neg (h d hd)]

@[simp] theorem engMod_put (s : State) (e : Nat) (x : Engine) (f : Engine → Engine) : engMod (engPut s e x) e f = engPut s e (f x) := by
  simp [engMod]

/-- A running tiller that goes on has nothing to settle. -/
theorem engSettle_on (s : State) (e : Nat) (x : Engine) (h1 : x.st = .running) (h2 : x.exc = none) (h3 : x.ending = false) :
    engSettle (engPut s e x) e = engPut s e x := by
  simp [engSettle, h1, h2, h3]

/-- The end of a dispatch that left the tiller as `x`. -/
theorem afterDispatch_put (s : State) (e : Nat) (x : Engine) (h1 : x.st = .running) (h2 : x.exc = none) (h3 : x.ending = false)
    (h4 : x.single = false) : afterDispatch (engPut s e x) e = engPut s e { x with skip := false } := by
  unfold afterDispatch
  rw [engSettle_on s e x h1 h2 h3]
  simp [h4]

/-- On to the next index after an instruction that left the tiller as `x`. -/
theorem advance_put (s : State) (e : Nat) (x : Engine) (h1 : x.st = .running) (h2 : x.exc = none) (h3 : x.ending = false)
    (h4 : x.single = false) : advance (engPut s e x) e = engPut s e (nextInstr x x) := by
  unfold advance nextInstr
  rw [engMod_put]
  by_cases c : x.pc.toNat = 16383
  · rw [if_pos c, if_pos c]
    exact afterDispatch_put s e _ h1 h2 h3 h4
  · rw [if_neg c, if_neg c]
    exact afterDispatch_put s e _ h1 h2 h3 h4

/-- What `canDispatch` says. -/
theorem canDispatch_iff (s : State) (e : Nat) : canDispatch s e = true ↔
    present s e = true ∧ (engGet s e).st = .running ∧ (engGet s e).ending = false ∧ (engGet s e).past = false ∧ (engGet s e).exc = none := by
  simp [canDispatch, and_assoc]

/-- A tiller at an instruction that nothing halts dispatches it. -/
theorem dispatch_at (op : Nat) (more : IWord → Bool) (feet : State → Nat → IWord → List Foot × List Foot) (f : State → Nat → IWord → Ctl)
    (s : State) (e : Nat) (h : AtWord s e op) (hm : encodingGood (engGet s e).word more = true)
    (hw : NoWatch s e (feet s e (engGet s e).word)) :
    dispatch op more feet f s e = finish e (wordQueue (engGet s e).word) (f s e (engGet s e).word) := by
  obtain ⟨hc, ho, hb, hk, _, hg, _⟩ := h
  have hk' : (if (engGet s e).skip then none else bpHit (engGet s e)) = none := by rcases hk with h | h <;> simp [h]
  have hw' : (if (engGet s e).skip then none else wpHit (engGet s e) (feet s e (engGet s e).word).1 (feet s e (engGet s e).word).2) = none := by
    rcases hw with h | h <;> simp [h]
  simp [dispatch, hc, ho, hb, hk', hm, hg, hw']

/-- What an instruction of the control core does not touch. -/
structure Calm (g x : Engine) : Prop where
  st : x.st = g.st
  exc : x.exc = g.exc
  ending : x.ending = g.ending
  single : x.single = g.single
  pc : x.pc = g.pc

theorem calm_refl (g : Engine) : Calm g g := ⟨rfl, rfl, rfl, rfl, rfl⟩
theorem calm_setSreg {g x : Engine} (h : Calm g x) (i : Nat) (v : W64) : Calm g (x.setSreg i v) := by
  unfold Engine.setSreg
  split
  · exact h
  · exact ⟨h.st, h.exc, h.ending, h.single, h.pc⟩
theorem calm_setPred {g x : Engine} (h : Calm g x) (i : Nat) (v : Bool) : Calm g (x.setPred i v) := ⟨h.st, h.exc, h.ending, h.single, h.pc⟩
theorem calm_setHand {g x : Engine} (h : Calm g x) (i : Nat) (v : BitVec 128) : Calm g (x.setHand i v) := ⟨h.st, h.exc, h.ending, h.single, h.pc⟩
theorem calm_setTok {g x : Engine} (h : Calm g x) (i : Nat) (v : W32) : Calm g (x.setTok i v) := ⟨h.st, h.exc, h.ending, h.single, h.pc⟩
theorem calm_count {g x : Engine} (h : Calm g x) (n : Nat) : Calm g (x.count n) := ⟨h.st, h.exc, h.ending, h.single, h.pc⟩

/-- A tiller that the control core left as `x` goes on to the next index. -/
theorem advance_next (s : State) (e : Nat) (x : Engine) (hs : canDispatch s e = true) (h1 : (engGet s e).single = false)
    (h : Calm (engGet s e) x) : advance (engPut s e x) e = tillerNext s e x := by
  obtain ⟨_, a, b, _, c⟩ := (canDispatch_iff s e).1 hs
  rw [advance_put s e x (h.st.trans a) (h.exc.trans c) (h.ending.trans b) (h.single.trans h1)]
  simp [tillerNext, nextInstr, h.pc]

/-- What a dispatched instruction answers that leaves its tiller as `x` and goes on. -/
theorem onEngine_go {op : Nat} {more : IWord → Bool} {feet : State → Nat → IWord → List Foot × List Foot} {f : State → Nat → IWord → Ctl}
    {s : State} {e : Nat} {x : Engine} (h : Ready s e op) (hm : encodingGood (engGet s e).word more = true)
    (hw : NoWatch s e (feet s e (engGet s e).word)) (hf : f s e (engGet s e).word = .go (engPut s e x)) (hx : Calm (engGet s e) x) :
    onEngine (dispatch op more feet f) e s = .next (tillerNext s e x) := by
  obtain ⟨hu, hn, ha⟩ := h
  unfold onEngine
  rw [run_up s _ hu, dispatch_at op more feet f s e ha hm hw, hf]
  have k : finish e (wordQueue (engGet s e).word) (.go (engPut s e x)) = tillerNext s e x := advance_next s e x ha.1 ha.2.2.2.2.2.2 hx
  rw [k, settle_id _ (by exact hn)]

theorem noWatch_none (s : State) (e : Nat) : NoWatch s e ([], []) := by
  right
  simp [wpHit]

/-- An instruction that changes its own tiller and goes on. -/
theorem core1_ready {op : Nat} {f : State → Nat → IWord → Engine → Engine} {s : State} {e : Nat} (h : Ready s e op)
    (hx : Calm (engGet s e) (f s e (engGet s e).word (engGet s e))) :
    onEngine (core1 op f) e s = .next (tillerNext s e ((f s e (engGet s e).word (engGet s e)).count 1)) := by
  unfold core1
  exact onEngine_go h h.2.2.2.2.2.2.1 (noWatch_none s e) rfl (calm_count hx 1)

end Sys2Proof.Machine
end

