-- ==== Sys2Proof/Laws/Event.lean ====
section
/-!
SUPPORT. Events, interrupts and fault records change nothing but the event registers, the fault ring, the MSI-X table, the outputs and the
management port.
-/

namespace Sys2Proof.Machine

theorem told_refl (s : State) : Told s s := rfl
theorem told_trans {s t u : State} (h : Told s t) (k : Told t u) : Told s u := by
  unfold Told at *
  rw [k, h]

theorem told_emit (s : State) (o : Out) : Told s (emit s o) := rfl
theorem told_evPut (s : State) (b : EvBlk) (v : W32) : Told s (evPut s b v) := rfl
theorem told_bumpFseq (s : State) : Told s (bumpFseq s) := rfl
theorem told_hostWrite (s : State) (a : Nat) (bs : List Byte) : Told s (hostWrite s a bs) := by
  unfold hostWrite
  split <;> rfl
theorem told_signalVec (s : State) (v : Nat) : Told s (signalVec s v) := by
  unfold signalVec
  dsimp only
  split
  · rfl
  · split <;> rfl
theorem told_interrupt (s : State) : Told s (interrupt s) := told_signalVec s _
theorem told_setEvent (s : State) (b : EvBlk) (bit : Nat) : Told s (setEvent s b bit) := by
  unfold setEvent
  split
  · rfl
  · exact told_trans (told_evPut s b _) (told_interrupt _)
theorem told_ringPut (s : State) (r : FaultRec) : Told s (ringPut s r) := by
  unfold ringPut
  exact told_trans (told_hostWrite s _ _) rfl
theorem told_mgmtPut (s : State) (r : FaultRec) : Told s (mgmtPut s r).2 := by
  unfold mgmtPut
  split <;> rfl
theorem told_fqOverflow (s : State) : Told s (fqOverflow s) := by
  unfold fqOverflow
  have h := told_setEvent s .mgtNet 0
  refine told_trans h ?_
  dsimp only
  split
  · exact told_trans (told_bumpFseq _) (told_ringPut _ _)
  · exact told_trans (told_bumpFseq _) (told_trans (by rfl) (told_setEvent _ _ _))
theorem told_frOverflow (s : State) : Told s (frOverflow s) := by
  unfold frOverflow
  have k : ∀ x : State, Told s x → ∀ r, Told s (if (mgmtPut (bumpFseq x) r).1 then fqOverflow (mgmtPut (bumpFseq x) r).2 else (mgmtPut (bumpFseq x) r).2) := by
    intro x hx r
    have m : Told s (mgmtPut (bumpFseq x) r).2 := told_trans hx (told_trans (told_bumpFseq x) (told_mgmtPut _ r))
    split
    · exact told_trans m (told_fqOverflow _)
    · exact m
  exact k _ (told_trans (by rfl) (told_setEvent _ _ _)) _

/-- Everything a fault record changes. -/
theorem told_record (s : State) (kind status block bit : Byte) (addr : W64) (d : List Byte) :
    Told s (record s kind status block bit addr d) := by
  unfold record
  have put : ∀ (x : State), Told s x → ∀ r, Told s (if (mgmtPut x r).1 then fqOverflow (mgmtPut x r).2 else (mgmtPut x r).2) := by
    intro x hx r
    have m : Told s (mgmtPut x r).2 := told_trans hx (told_mgmtPut x r)
    split
    · exact told_trans m (told_fqOverflow _)
    · exact m
  dsimp only
  cases ringRoom (bumpFseq s) with
  | true => exact put _ (told_trans (told_bumpFseq s) (told_ringPut _ _)) _
  | false => exact told_trans (put _ (told_bumpFseq s) _) (told_frOverflow _)

/-- Everything an event changes. -/
theorem told_event (s : State) (b : EvBlk) (bit idx sub val addr : Nat) (status : Byte) :
    Told s (event s b bit idx sub val addr status) :=
  told_trans (told_setEvent s b bit) (told_record _ _ _ _ _ _ _)

end Sys2Proof.Machine
end

