-- ==== Sys2Proof/Laws/Memory.lean ====
section
/-!
SUPPORT. Laws of the package memory: what a byte reads after a write or a fill, and the canonical form kept by every operation.
-/

namespace Sys2Proof.Machine

@[simp] theorem memSet_spans (m : Mem) (a : Nat) (b : Byte) : (memSet m a b).spans = m.spans := rfl

/-- What a byte reads after one byte was written. -/
theorem memGet_set (m : Mem) (a x : Nat) (b : Byte) : memGet (memSet m a b) x = if x = a then b else memGet m x :=
  tblGet_set _ _ _ _ _

/-- Bytes outside a write read as before. -/
theorem memGet_write_out (m : Mem) (a x : Nat) (bs : List Byte) (h : x < a ∨ a + bs.length ≤ x) : memGet (memWrite m a bs) x = memGet m x := by
  induction bs generalizing m a with
  | nil => rfl
  | cons b t ih =>
    have h' : x < a + 1 ∨ a + 1 + t.length ≤ x := by simp at h; omega
    have hx : x ≠ a := by simp at h; omega
    rw [memWrite, ih _ _ h', memGet_set, if_neg hx]

/-- A byte of a write reads what was written. -/
theorem memGet_write_in (m : Mem) (a i : Nat) (bs : List Byte) (h : i < bs.length) : memGet (memWrite m a bs) (a + i) = bs[i] := by
  induction bs generalizing m a i with
  | nil => cases h
  | cons b t ih =>
    cases i with
    | zero => rw [memWrite, memGet_write_out _ _ _ _ (by omega), memGet_set]; simp
    | succ n =>
      have hn : n < t.length := by simpa using h
      rw [memWrite]
      have : a + (n + 1) = a + 1 + n := by omega
      rw [this, ih _ _ _ hn]; rfl

theorem memWrite_spans (m : Mem) (a : Nat) (bs : List Byte) : (memWrite m a bs).spans = m.spans := by
  induction bs generalizing m a with
  | nil => rfl
  | cons b t ih => rw [memWrite, ih]; rfl

/-- One byte written keeps the canonical form. -/
theorem memSet_wf (m : Mem) (a : Nat) (b : Byte) (h : m.wf = true) : (memSet m a b).wf = true := tblWf_set _ _ _ _ h

/-- A write keeps the canonical form. -/
theorem memWrite_wf (m : Mem) (a : Nat) (bs : List Byte) (h : m.wf = true) : (memWrite m a bs).wf = true := by
  induction bs generalizing m a with
  | nil => exact h
  | cons b t ih => exact ih _ _ (memSet_wf m a b h)

/-- Outside a filled range every address reads, unlisted, as before. -/
theorem spanByte_fill (l : List (Nat × Nat × Nat)) (lo hi tag x : Nat) (h : x < lo ∨ hi ≤ x) :
    spanByte ((lo, hi, tag) :: l.filter (fun p => decide (p.1 < lo) || decide (hi < p.2.1))) x = spanByte l x := by
  have hf : (l.filter (fun p => decide (p.1 < lo) || decide (hi < p.2.1))).find? (fun p => decide (p.1 ≤ x) && decide (x < p.2.1))
      = l.find? (fun p => decide (p.1 ≤ x) && decide (x < p.2.1)) := by
    induction l with
    | nil => rfl
    | cons p r ih =>
      by_cases c : (decide (p.1 < lo) || decide (hi < p.2.1)) = true
      · rw [List.filter_cons, if_pos c]
        by_cases e : (decide (p.1 ≤ x) && decide (x < p.2.1)) = true
        · simp only [List.find?_cons, e]
        · simp only [List.find?_cons, e, ih]
      · rw [List.filter_cons, if_neg c]
        have e : ¬ (decide (p.1 ≤ x) && decide (x < p.2.1)) = true := by
          simp at c ⊢; omega
        rw [ih]; simp only [List.find?_cons, e]
  have hn : ¬ (decide (lo ≤ x) && decide (x < hi)) = true := by simp; omega
  unfold spanByte
  simp only [List.find?_cons, hn, hf]

/-- A fill keeps the canonical form. -/
theorem memFill_wf (m : Mem) (lo hi tag : Nat) (h : m.wf = true) : (memFill m lo hi tag).wf = true := by
  unfold Mem.wf memFill
  refine tblWf_congr _ _ _ (tblWf_filter _ _ _ h) ?_
  intro e he
  have := (List.mem_filter.mp he).2
  exact (spanByte_fill m.spans lo hi tag e.1 (by simpa using this)).symm

/-- Bytes outside a filled range read as before. -/
theorem memGet_fill_out (m : Mem) (lo hi tag x : Nat) (h : x < lo ∨ hi ≤ x) : memGet (memFill m lo hi tag) x = memGet m x := by
  unfold memGet memFill
  have key : ∀ t : Tbl Byte, tblGet (spanByte ((lo, hi, tag) :: m.spans.filter (fun p => decide (p.1 < lo) || decide (hi < p.2.1))))
      (t.filter (fun e => decide (e.1 < lo) || decide (hi ≤ e.1))) x = tblGet (spanByte m.spans) t x := by
    intro t
    induction t with
    | nil => exact spanByte_fill m.spans lo hi tag x h
    | cons e r ih =>
      by_cases c : (decide (e.1 < lo) || decide (hi ≤ e.1)) = true
      · rw [List.filter_cons, if_pos c]
        by_cases q : e.1 = x
        · simp [tblGet, q]
        · simp [tblGet, q, ih]
      · rw [List.filter_cons, if_neg c, ih]
        have q : e.1 ≠ x := by simp at c; omega
        simp [tblGet, q]
  exact key m.cells

/-- Bytes of a range filled with zeros read zero. -/
theorem memGet_fill_zero (m : Mem) (lo hi x : Nat) (h1 : lo ≤ x) (h2 : x < hi) : memGet (memFill m lo hi 0) x = 0 := by
  unfold memGet memFill
  have key : ∀ t : Tbl Byte, tblGet (spanByte ((lo, hi, 0) :: m.spans.filter (fun p => decide (p.1 < lo) || decide (hi < p.2.1))))
      (t.filter (fun e => decide (e.1 < lo) || decide (hi ≤ e.1))) x = 0 := by
    intro t
    induction t with
    | nil => simp [tblGet, spanByte, h1, h2]
    | cons e r ih =>
      by_cases c : (decide (e.1 < lo) || decide (hi ≤ e.1)) = true
      · rw [List.filter_cons, if_pos c]
        have q : e.1 ≠ x := by simp at c; omega
        simp [tblGet, q, ih]
      · rw [List.filter_cons, if_neg c, ih]
  exact key m.cells

end Sys2Proof.Machine
end

