-- ==== Sys2Proof/Tests/Slice0.lean ====
section
/-!
SUPPORT. Tests: ill-formed commands are refused, the spec's worked examples hold, and every statement with hypotheses has
witnesses that meet all of them, one for each clause.
-/

set_option Elab.async false

open Sys2Proof Sys2Proof.Machine

namespace Sys2Proof.Tests
/-! Ill-formed commands are refused by `wellFormed`: one term past the end of each range. -/

/-- A tiller number of 64 is refused. -/
theorem test_ill_formed_engine :
    ([.beatWaitRelease 64, .nop 64, .sLi 64, .sAddi 64, .sAdd 64, .sSub 64, .sMul 64, .sAnd 64, .sOr 64, .sXor 64, .sShl 64, .sShr 64, .sSra 64,
      .sMin 64, .sMinu 64, .sMax 64, .sMaxu 64, .sAndi 64, .sShli 64, .sShri 64, .sSt 64, .br 64, .brLink 64, .brReg 64, .brDec 64, .pEq 64,
      .pNe 64, .pLt 64, .pLtu 64, .pGe 64, .pGeu 64, .pEqi 64, .pLti 64, .pLtui 64, .pAnd 64, .pOr 64, .pXor 64, .pNot 64, .sRdctr 64, .sBeat 64,
      .sEng 64, .sChip 64, .sRdtok 64, .syEnd 64, .hdSet 64, .hdBase 64, .hdShape 64, .hdRd 64, .hdClr 64, .mvLoad 64, .mvStore 64, .mvTload 64,
      .mvCopy 64, .mvTcopy 64, .mvGather 64, .mvScatter 64, .mvCvt 64, .fxPut 64, .fxGet 64, .fxAtom 64, .syInc 64, .syIncApply 64, .syTset 64,
      .syTwait 64, .syWait 64, .syBar 64, .syDrain 64, .syCommit 64, .hnPhase 64, .mmFull 64, .mmHalf 64, .mmQuarter 64, .mmThin 64, .mmFullT 64,
      .mmOp32 64, .vxAdd 64, .vxSub 64, .vxMul 64, .vxFma 64, .vxMax 64, .vxMin 64, .vxAbs 64, .vxRcp 64, .vxCvt 64, .vxRsum 64, .vxRmax 64,
      .vxNanc 64, .vxPopc 64, .vxHamm 64, .vxTopk 64, .vxSamp 64, .vxOpt 64, .tbLoad 64, .tbFwd 64, .tbDer 64, .ggSum 64, .shGrain 64, .halt 64,
      .resume 64, .stepOne 64, .undefinedOpcode 64] : List Instr).all (fun i => !wellFormed i) = true := by decide +kernel
/-- A queue number of 1024 is refused. -/
theorem test_ill_formed_queue :
    ([.stop 1024, .nopDesc 1024, .copy 1024, .engineLoad 1024, .engineReset 1024, .engineStart 1024, .phaseHint 1024, .seqBind 1024,
      .seqUnbind 1024, .seqPatch 1024, .decodeStep 1024, .kvPool 1024, .jrnlFlush 1024, .cktSetup 1024, .cktTeardown 1024, .mcWrite 1024,
      .rmtWrite 1024, .rmtRead 1024, .rmtAtomic 1024, .calWrite 1024, .descNotBefore 1024] : List Instr).all (fun i => !wellFormed i) = true := by decide +kernel
/-- Each other range that is a command's only operand is refused. -/
theorem test_ill_formed_other :
    ([.pwrGoodRise 7, .pwrGoodFall 7, .coalTimer 256, .circuitActivation 256, .sheafCalWindow 4, .placeDrainDone 1024, .fullCal 16, .program 16,
      .sheafForcedWindow 4, .sheafLockLost 4, .bankSwapStart 24, .bankSwapDone 24, .forcedSwap 24, .optSwap 24, .test 64, .recovery 64,
      .linkSilenceTimeout 64, .linkStallTimeout 64, .identEnd 64, .hold 64, .retrain 64, .peerSilent 64, .bypassToPass 4096,
      .bypassToBypass 4096, .bypDone 12, .vc6Packet 64, .remoteTimeout 65536, .rebuild 64, .mirResync 64, .sensorSpareIn 72, .droop 4,
      .droopRestore 4] : List Instr).all (fun i => !wellFormed i) = true := by decide +kernel
/-- Each range of a command with more operands, whatever the others are. -/
theorem test_ill_formed_beside :
    (∀ x1, wellFormed (.start 1024 x1) = false) ∧
    (∀ x1, wellFormed (.groupReadReturn 32 x1) = false) ∧
    (∀ x1, wellFormed (.descFetchReturn 1024 x1) = false) ∧
    (∀ x1, wellFormed (.cqHeadRead 256 x1) = false) ∧
    (∀ x1, wellFormed (.cqCtrlWrite 256 x1) = false) ∧
    (∀ x1 x2, wellFormed (.hostLinkTrain 8 x1 x2) = false) ∧
    (∀ x1 x2, wellFormed (.hostLinkTrain x1 32 x2) = false) ∧
    (∀ x1 x2 x3, wellFormed (.regWriteOther 33554432 x1 x2 x3) = false) ∧
    (∀ x1, wellFormed (.instrIssue 64 x1) = false) ∧
    (∀ x1, wellFormed (.sLd ⟨64, x1⟩) = false) ∧
    (∀ x1 x2, wellFormed (.instrComplete 64 x1 x2) = false) ∧
    (∀ x1, wellFormed (.grainGroupDone 64 x1) = false) ∧
    (∀ x1 x2, wellFormed (.arbDecision 7 x1 x2) = false) ∧
    (∀ x1 x2, wellFormed (.arbWeightWrite 7 x1 x2) = false) ∧
    (∀ x1 x2, wellFormed (.arbWeightWrite x1 16 x2) = false) ∧
    (∀ x1 x2 x3, wellFormed (.hbmReadReturn 64 x1 x2 x3) = false) ∧
    (∀ x1, wellFormed (.hbmWriteAck 64 x1) = false) ∧
    (∀ x1 x2, wellFormed (.fill 4 x1 x2) = false) ∧
    (∀ x1, wellFormed (.fillData 4 x1) = false) ∧
    (∀ x1, wellFormed (.evict 4 x1) = false) ∧
    (∀ x1, wellFormed (.inv 4 x1) = false) ∧
    (∀ x1, wellFormed (.invAck 4 x1) = false) ∧
    (∀ x1, wellFormed (.invStack 4 x1) = false) ∧
    (∀ x1, wellFormed (.invStack x1 10) = false) ∧
    (∀ x1, wellFormed (.d2dRetrainEnd 24 x1) = false) ∧
    (∀ x1, wellFormed (.memPlaceWrite 1024 x1) = false) ∧
    (∀ x1, wellFormed (.stackTrainDone 10 x1) = false) ∧
    (∀ x1, wellFormed (.sheafWarmEnd 4 x1) = false) ∧
    (∀ x1 x2 x3, wellFormed (.sheafCalEnd 4 x1 x2 x3) = false) ∧
    (∀ x1, wellFormed (.sheafWindowEnd 4 x1) = false) ∧
    (∀ x1, wellFormed (.sheafRelockEnd 4 x1) = false) ∧
    (∀ x1 x2, wellFormed (.laserBiasTick 24 x1 x2) = false) ∧
    (∀ x1 x2, wellFormed (.laserBiasTick x1 9 x2) = false) ∧
    (∀ x1 x2, wellFormed (.marginPassEnd 64 x1 x2) = false) ∧
    (∀ x1 x2, wellFormed (.flitTx 64 x1 x2) = false) ∧
    (∀ x1 x2, wellFormed (.flitTx x1 8 x2) = false) ∧
    (∀ x1 x2 x3, wellFormed (.flitRx 64 x1 x2 x3) = false) ∧
    (∀ x1 x2 x3, wellFormed (.flitRx x1 8 x2 x3) = false) ∧
    (∀ x1, wellFormed (.nakTimer 64 x1) = false) ∧
    (∀ x1, wellFormed (.nakTimer x1 8) = false) ∧
    (∀ x1 x2 x3, wellFormed (.trainEnd 64 x1 x2 x3) = false) ∧
    (∀ x1, wellFormed (.release 64 x1) = false) ∧
    (∀ x1, wellFormed (.release x1 16) = false) ∧
    (∀ x1 x2, wellFormed (.packetForward 64 x1 x2) = false) ∧
    (∀ x1 x2, wellFormed (.packetForward x1 8 x2) = false) ∧
    (∀ x1, wellFormed (.streamAck 64 x1) = false) ∧
    (∀ x1 x2, wellFormed (.fabRgnWrite 64 x1 x2) = false) ∧
    (∀ x1 x2, wellFormed (.fabRgnWrite x1 4 x2) = false) ∧
    (∀ x1 x2, wellFormed (.fabMirWrite 64 x1 x2) = false) ∧
    (∀ x1 x2, wellFormed (.fabMirWrite x1 8 x2) = false) ∧
    (∀ x1, wellFormed (.add x1 65536) = false) ∧
    (∀ x1, wellFormed (.remove x1 65536) = false) ∧
    (∀ x1, wellFormed (.retireSensor 72 x1) = false) ∧
    (∀ x1, wellFormed (.retireSensor x1 5) = false) ∧
    (∀ x1, wellFormed (.throttlePersist 4 x1) = false) ∧
    (∀ x1, wellFormed (.ageingHour 4 x1) = false) ∧
    (∀ x1, wellFormed (.tileFault 64 x1) = false) ∧
    (∀ x1, wellFormed (.tileFault x1 3) = false) ∧
    (∀ x1 x2, wellFormed (.tileSelftestDone 64 x1 x2) = false) ∧
    (∀ x1, wellFormed (.spareTileCheckDone 64 x1) = false) ∧
    (∀ x1 x2, wellFormed (.sramRowReplace 72 x1 x2) = false) ∧
    (∀ x1 x2, wellFormed (.sramRowReplace x1 48 x2) = false) ∧
    (∀ x1, wellFormed (.dbgTokenWrite 7928 x1) = false) ∧
    (∀ x1, wellFormed (.completionTimeout 1024 x1) = false) ∧
    (∀ x1 x2, wellFormed (.msixTableWrite 4096 x1 x2) = false) ∧
    (∀ x1, wellFormed (.bar0Read 33554432 x1) = false) := by
  simp [wellFormed]
/-- An interface has 64, 32 or 20 groups of wires and no more. -/
theorem test_ill_formed_wires :
    wellFormed (.d2dRetrainEnd 0 (List.replicate 65 0)) = false ∧ wellFormed (.d2dRetrainEnd 4 (List.replicate 33 0)) = false ∧
    wellFormed (.d2dRetrainEnd 20 (List.replicate 21 0)) = false ∧
    ∀ r : StageReport, r.wires = [(24, [])] → wellFormed (.bringupStepEnd r) = false := by
  refine ⟨by decide, by decide, by decide, fun r h => by simp [wellFormed, h]⟩

/-! Worked examples and tables of the spec. Every expected value is the spec's own. -/

/-- R30 and its example: field 5, block 3, x = 2, y = 7, z = 4 is chip 0x56BC. -/
theorem test_chip_number :
    (chipField 0x56BC, chipBlock 0x56BC, chipCoord 0x56BC 0, chipCoord 0x56BC 1, chipCoord 0x56BC 2) = (5, 3, 2, 7, 4) := by decide
/-- The example of R35: 0x0002_4000_3000 of a PACKAGE region lies in stack 2 of an M10L6 part. -/
theorem test_package_placement :
    stackOf (placePut State.reset 9 ⟨2, 0, 0, false, false, false⟩) 0x240003000 = 2 := by decide +kernel
/-- Table 6-5: the FP32 value nearest −2.7 in ten formats (their codes: FORMAT 1 to 10). -/
theorem test_minus_2_7 :
    [1, 2, 3, 4, 5, 6, 7, 8, 9, 10].map (fun f => encodeFmt f .rne true (ofF32 0xC02CCCCD))
      = [0xC02CC000, 0xC02D, 0xC166, 0xC3, 0xC1, 0x31, 0x33, 0xD, 0xFD, 0xD] := by decide +kernel
/-- The text under Table 6-5: RTZ, and 500.0 in the two FP8 formats. -/
theorem test_rtz_and_saturation :
    [encodeFmt 2 .rtz true (ofF32 0xC02CCCCD), encodeFmt 5 .rtz true (ofF32 0xC02CCCCD), encodeFmt 4 .rne true (.ofInt 500),
      encodeFmt 4 .rne false (.ofInt 500), encodeFmt 5 .rne true (.ofInt 500), encodeFmt 5 .rne false (.ofInt 500)]
      = [0xC02C, 0xC1, 0x7E, 0x7F, 0x60, 0x60] := by decide +kernel
/-- Table 6-6: the scale of the MXFP4 block and its four elements. -/
theorem test_mxfp4_block :
    (blockScaleFor 8 1 .zero [.ofInt 20, .ofInt 7, .fin false 13 10, .fin true 6 10]).1 = 0x81 ∧
    [Fl.ofInt 20, .ofInt 7, .fin false 13 10, .fin true 6 10].map (fun x => encodeFmt 8 .rne true (x.divBy (.ofInt 4)))
      = [6, 4, 1, 8] := by decide +kernel
/-- The text under Table 6-6: the UE4M3 scale of the same block with t = 1.0 is 0x45. -/
theorem test_ue4m3_block :
    (blockScaleFor 8 2 (.ofInt 1) [.ofInt 20, .ofInt 7, .fin false 13 10, .fin true 6 10]).1 = 0x45 := by decide +kernel
/-- The last example of chapter 6: 1.3 to BF16 under SR with the two random words. -/
theorem test_stochastic_rounding :
    [encodeFmt 2 (.sr 0x12345678) true (ofF32 0x3FA66666), encodeFmt 2 (.sr 0x9ABCDEF0) true (ofF32 0x3FA66666)]
      = [0x3FA7, 0x3FA6] := by decide +kernel
/-- The word of the example of R127: `mv.load h4, [s6], s7`, waiting for t3 ≥ s9, incrementing t5. -/
def mvLoadWord : IWord := 0x000000000000000000070604_0B487080
/-- Its fields, and it is a legal encoding. -/
theorem test_mv_load_word :
    (wOp mvLoadWord, wA mvLoadWord, wB mvLoadWord, wC mvLoadWord, fld mvLoadWord 13 6, fld mvLoadWord 19 5, fld mvLoadWord 25 6)
      = (0x80, 4, 6, 7, 3, 9, 5) ∧ (opSpec 0x80).map (encodingOk mvLoadWord) = some true := by decide +kernel
/-- The example of chapter 26: HIF_ID and HIF_SITE_MAP of an M10L6 part. -/
theorem test_hif_id : (regHif State.reset 0, regHif State.reset 4) = (0x0306A0B0, 0x7733) := by decide +kernel
/-- The mask and the virtual channel that a packet leaves on. -/
def sentOn : Route2 → Option (W64 × Nat)
  | .send m vc _ _ => some (m, vc)
  | _ => none
/-- A chip of Table 17-4 with the masks that its hops use; every port is UP. -/
def hopChip (me : W16) : State :=
  let bank : RBank := { State.reset.rt.bankA with
    dir := 1 <<< 10 + 1 <<< 18, torus := [(0, 0x1010101), (2, 0x4040404)], grid := [(7, 3 <<< 48)], field := [(6, 3 <<< 36)], date := 4 }
  { State.reset with
    opt := .m8l8
    rt := { State.reset.rt with chip := me, bankA := bank }
    link := { State.reset.link with ports := (List.range 64).map (fun p => (p, { Port.init with st := .up })) } }
/-- The request of Table 17-4, with its RFLAGS. -/
def hopReq (fl : BitVec 4) : Packet := ⟨0, false, false, 1, fl, 0, 0, 0x7D4C, 0x56BC, 0, 0, 0, 0, true, 0, 0, []⟩
/-- Table 17-4: the grid hop, the field hop, the first x+ hop, and the y+ hop that crosses the date line. -/
theorem test_route_example :
    [sentOn (routeOf (hopChip 0x56BC) none (hopReq 0)), sentOn (routeOf (hopChip 0x76BC) (some 50) (hopReq 1)),
      sentOn (routeOf (hopChip 0x7CBC) (some 38) (hopReq 3)), sentOn (routeOf (hopChip 0x7D7C) (some 1) (hopReq 3))]
      = ([some (3 <<< 48, 4), some (3 <<< 36, 4), some (0x1010101, 0), some (0x4040404, 1)] : List (Option (W64 × Nat))) := by decide +kernel
/-- The example of chapter 16: a read response of 4,096 bytes takes 18 flits. -/
theorem test_flits_of_a_read : (flitsOf 2 { hopReq 0 with payload := List.replicate 4096 0 }).length = 18 := by decide +kernel
/-- The example of R444: a share of 560 W at 98 °C leaves 476 W. -/
theorem test_thermal_limit : thermalLimit 560 (8 * 98) = 476 := by decide +kernel
/-- The example of R439: phase 7 with its learned means, its hint applying, and die 0 at 180 W. -/
def phase7 : State := { State.reset with
  pwr := { State.reset.pwr with
    phases := [(7, BitVec.ofNat 64 (540 + 540 * 2 ^ 10 + 330 * 2 ^ 20 + 330 * 2 ^ 30 + 2 * 2 ^ 40))]
    hints := [⟨7, 5000, 100, true, true, 0⟩]
    dies := [(0, { PwrDie.init with power := 180 })] } }
/-- Each share is the mean and 6.5 W (in mW), and the ramp of die 0 takes 879 beats. -/
theorem test_phase_shares :
    (governing phase7, sharesOf phase7 1766000, rampLead phase7 7 0) = (7, [546500, 546500, 336500, 336500], 879) := by decide +kernel
/-- The table gives no row bits, so no word spells a command. -/
theorem test_no_words (n w : Nat) : decodeTableWord n w = none := rfl

/-! States for the witnesses. -/

/-- The block with its firmware running and nothing under way. -/
def up : State := { State.reset with
  board := { Board.init with resetN := true, pwrGood := 0x7F, held := false, holdup := true, fref := true, bypState := 0 }
  boot := { Boot.init with stage := 13 } }
/-- An instruction word from its opcode, fields A, B, C, D and the low 32 bits of the immediate. -/
def iw (op a b c d imm : Nat) : BitVec 128 :=
  BitVec.ofNat 128 (op + a * 2 ^ 32 + b * 2 ^ 40 + c * 2 ^ 48 + d * 2 ^ 56 + imm * 2 ^ 64)
/-- A tiller running at a word. -/
def eng0 (w : BitVec 128) : Engine := { Engine.zero with
  st := .running, istore := [(0, w), (9, w)], sregs := [(2, 7), (3, 0xFFFFFFFFFFFFFFFF), (4, 65), (5, 0x40000), (6, 0x10001)] }
/-- The block with tiller 0 running at a word. -/
def at0 (w : BitVec 128) : State := engPut up 0 (eng0 w)
/-- The same with the tiller changed. -/
def at0x (w : BitVec 128) (f : Engine → Engine) : State := engPut up 0 (f (eng0 w))
/-- A slab descriptor from its fields, with VALID as its checks decide. -/
def slab (base acc fmt tiled rows cols stride : Nat) : BitVec 128 :=
  withValid (BitVec.ofNat 128 (base + acc * 2 ^ 19 + fmt * 2 ^ 20 + tiled * 2 ^ 26 + rows * 2 ^ 32 + cols * 2 ^ 48 + stride * 2 ^ 64))
/-- Fifteen slabs: FP32, INT32, BIN1 and BF16, one of them an accumulator. -/
def slabs : List (Nat × BitVec 128) :=
  [(0, slab 0x1400 0 0 0 16 2 1), (1, slab 0x100 0 0 0 16 64 4), (2, slab 0x200 0 0 0 16 64 4), (3, slab 0x300 0 0 0 16 64 4),
   (4, slab 0x400 0 0 0 16 64 4), (5, slab 0x500 0 13 0 16 1 1), (6, slab 0x600 0 15 0 16 64 1), (7, slab 0x700 0 13 0 16 16 1),
   (8, slab 0x800 0 13 0 16 8 1), (9, slab 0x900 0 13 0 64 64 4), (10, slab 0 1 0 0 16 64 4), (11, slab 0xA00 0 2 0 16 64 2),
   (12, slab 0xB00 0 2 0 64 64 2), (13, slab 0xC00 0 2 1 64 64 128), (14, slab 0xE00 0 0 0 64 64 4), (15, slab 0x1300 0 0 0 16 1 1)]
/-- Tiller 0 running at a queued instruction, with the slabs. -/
def atQ (w : BitVec 128) : State := engPut up 0 { eng0 w with handles := slabs, sregs := [(7, 64)] }
/-- The bits of a matrix instruction beside its handles: group 0, the formats of A and B. -/
def mmImm (fa fb : Nat) : Nat := 2 ^ 24 + fa * 2 ^ 44 + fb * 2 ^ 48
/-- One word of each queued opcode. -/
def qWords : List (BitVec 128) :=
  [iw 0x80 1 0 7 0 0, iw 0x81 1 0 7 0 0, iw 0x82 1 0 7 0 0, iw 0x83 1 2 0 0 0, iw 0x84 12 12 0 0 0, iw 0x85 0 0 7 5 0, iw 0x86 0 0 7 5 0,
   iw 0x87 1 2 0 0 0, iw 0xA0 1 0 7 0 0x5000, iw 0xA1 1 0 7 0 0x5000, iw 0xA2 0 0 7 0 0x5000, iw 0x66 0 2 0 0 0x5000, iw 0xF8 6 1 0 0 0x5000,
   iw 0xC0 10 11 12 0 (mmImm 2 2), iw 0xC1 10 11 12 0 (mmImm 2 2), iw 0xC2 10 11 12 0 (mmImm 2 2), iw 0xC3 10 11 12 7 (mmImm 2 2),
   iw 0xC4 10 11 13 0 (mmImm 2 2), iw 0xC5 10 1 14 0 (mmImm 0 0)]
  ++ [iw 0xE0 1 2 3 0 0, iw 0xE1 1 2 3 0 0, iw 0xE2 1 2 3 0 0, iw 0xE3 1 2 3 4 0, iw 0xE4 1 2 3 0 0, iw 0xE5 1 2 3 0 0, iw 0xE6 1 2 0 0 0,
   iw 0xE7 1 2 0 0 0, iw 0xE8 1 2 0 0 0, iw 0xE9 15 1 0 0 0, iw 0xEA 15 1 0 0 0, iw 0xEB 5 1 0 0 0, iw 0xEC 5 6 0 0 0, iw 0xED 7 6 6 0 0,
   iw 0xEE 8 1 0 0 0, iw 0xEF 5 1 8 0 0, iw 0xF0 1 2 3 4 0, iw 0xF1 0 9 0 0 0, iw 0xF2 1 2 0 0 0, iw 0xF3 1 2 0 0 0, iw 0xF4 1 2 5 0 0]
/-- Tiller 0 at the word number `k` of `qWords`, with the queues full of copies that wait. -/
def fullAt (k : Nat) : State :=
  let w := qWords.getD k 0
  let l := List.replicate 32 (⟨0, 0, 0, [], [], none, [], [], []⟩ : QInstr)
  engPut up 0 { eng0 w with handles := slabs, sregs := [(7, 64)], qmm := l, qvx := l, qmv := l }
/-- A queued instruction: its place in dispatch order, its word and its footprints. -/
def qi (ord : Nat) (w : BitVec 128) (srcs dsts : List Foot) : QInstr := ⟨ord, 0, w, slabs, [(7, 64)], none, srcs, dsts, []⟩
/-- An issued instruction. -/
def xi (qu : EngQueue) (stage : XStage) (i : QInstr) : XInstr := ⟨qu, i, stage, false, 0, .zero, 0, 0, 0, 0, false⟩
/-- A descriptor from the values of its fields: `(byte, value)`. -/
def desc (l : List (Nat × Nat)) : List Byte := leBytes 64 (l.foldl (fun a x => a + x.2 * 2 ^ (8 * x.1)) 0)
/-- A queue table entry that allows everything. -/
def tabAll : QTab := ⟨0x1000, false, 4, 1, true, true, BitVec.allOnes 64, BitVec.allOnes 64, 0, 0xFFFFFFFFF000⟩
/-- The block with the host link up, ring 0 enabled, and a descriptor fetched by queue 0. -/
def que (d : List Byte) : State := { up with
  hif := { up.hif with up := true, en := true, cq := [(0, { Cq.init with en := true, base := 0x9000 })], q := [(0, { Queue.init with st := .active, tab := tabAll, ci := 6, pi := 7, fetched := 7, got := [d] })] } }
/-- A queue table entry as 64 bytes in host memory. -/
def tabBytes : List Byte := desc [(0, 0x1000), (8, 1 + 4 * 4), (9, 1), (40, 0x1000)]
/-- A view of host memory that holds `l` from address `a`. -/
def view (a : Nat) (l : List Byte) (f : HostFail) : HostView := ⟨(List.range l.length).map (fun i => (a + i, l.getD i 0)), f⟩
/-- A running gather of one row. -/
def row1 (op : Nat) : XInstr := xi .mv .running { qi 3 (iw op 1 0 0 0 0) [] [] with hs := [(1, slab 0x100 0 0 0 1 64 4)] }
/-- A grain-forming instruction whose first group is in the sheaf. -/
def grain0 : XInstr := { xi .sf .running (qi 3 (iw 0xF8 6 1 0 0 0x5000) [] []) with granted := 1, lock := true }
/-- The block with one placement entry set. -/
def plc (n : Nat) (p : Place) : Sys2Proof.Machine.State := { up with ms := { up.ms with place := [(n, p)] } }
/-- The state, under a short name. -/
abbrev S := Sys2Proof.Machine.State
/-- The block with a repair address and its memory changed. -/
def repS (f : MemSys → MemSys) : S := { up with ms := f { up.ms with repairAddr := 4096 * 7 + 100 } }
/-- Every stack of an M10L6 part changed alike. -/
def stk (f : Stack → Stack) : MemSys → MemSys := fun m => { m with stackTab := (List.range 10).map (fun j => (j, f Stack.init)) }
/-- No region assigned. -/
def unas : MemSys → MemSys := fun m => {m with place := (List.range 360).map (fun n => (n, (⟨0,0,0,false,false,false⟩ : Place)))}
/-- The block with the host link up. -/
def lnk : S := { up with hif := { up.hif with up := true } }
/-- The block with queue 0 and the host interface changed. -/
def withQ (x : Queue) (h : Hif → Hif) : S := { up with hif := h { up.hif with up := true, en := true, q := [(0, x)] } }
/-- An active queue with one descriptor not fetched yet. -/
def act : Queue := { Queue.init with st := .active, tab := tabAll, ci := 6, pi := 7, fetched := 6 }
/-- A started descriptor: its queue, its bytes, what it waits for. -/
def sta (q : Option Nat) (d : List Byte) (w : DWait) : Started := ⟨3, q, d, w, 0, [], [], 0, [], []⟩
/-- A ready descriptor with completion ring 0 changed. -/
def rq (f : Cq → Cq) : S := let s := que (desc []); { s with hif := { s.hif with cq := [(0, f (cqGet s 0))] } }
/-- The compute dies at 25 °C. -/
def warm (s : S) : S := { s with thm := { s.thm with dies := [(0, 200), (1, 200), (2, 200), (3, 200)] } }
/-- A COPY from package to host memory. -/
def dHost : List Byte := desc [(0, 1), (4, 16), (32, 0x5000), (40, 0x200), (48, 1)]
/-- A state with its sequence slots changed. -/
def withSeq (s : S) (f : Seqs → Seqs) : S := { s with seqs := f s.seqs }
/-- A sequence table and a page pool. -/
def sq0 (x : Seqs) : Seqs := { x with base := 0x10000, entries := 16, kvBase := 0x100000, frame := 1, frames := 64, kvStack := 0x200000 }
/-- The 128 bytes of a sequence entry. -/
def entB : List Byte := desc [(0, 1), (4, 5), (8, 100), (0x14, 2), (0x18, 0x300000), (0x3D, 3)] ++ List.replicate 64 0
/-- A state with bytes stored. -/
def withMem (s : S) (a : Nat) (l : List Byte) : S := { s with mem := memWrite s.mem a l }
/-- A descriptor at the front and slot 2 bound. -/
def slotted (d : List Byte) (h : Option Nat) : S := withSeq (que d) (fun x => { sq0 x with slots := [(2, some ⟨4, entB, h⟩)] })
/-- A DECODE_STEP of four slots. -/
def dDec : List Byte := desc [(0, 0x33), (32, 4), (48, 0x4000), (56, 1)]
/-- Completion ring 3 enabled. -/
def ring3 (s : S) : S := { s with hif := { s.hif with cq := [(0, cqGet s 0), (3, { Cq.init with en := true, log2 := 4, i := 16, head := 0 })] } }
/-- A DECODE_STEP with its engines running. -/
def stepping : S := { slotted dDec (some 3) with seqs := { (slotted dDec (some 3)).seqs with steps := [⟨3, none, [2], [], 0, true, false, [], []⟩] }, hif := { (slotted dDec (some 3)).hif with started := [sta (some 0) dDec .decode] } }
/-- An idle remote operation. -/
def o0 : RmtOp := ⟨0, .desc 0, 0, 0, false, 0, 0, 0, 0, [], 0, 0, 0, [], [], [], none, false, 0, []⟩
/-- This chip, 7, in slice 5 with a rank table. -/
def sliced (s : S) : S := { s with rt := { s.rt with slice := 5, chip := 7, rankBase := 0x9000000, rankCount := 16 } }
/-- A JRNL_FLUSH. -/
def dFl : List Byte := desc [(0, 0x35), (4, 64), (32, 0x4000)]
/-- A journal record. -/
def recB : List Byte := desc [(0, 64), (4, 9), (16, 0x1234)]
/-- A flush waiting for one journal record. -/
def jdd : S := { up with hif := { up.hif with started := [sta (some 0) dFl .journal] }, shf := { up.shf with jout := [⟨3, 7, 9⟩] } }
/-- A state with circuit entry n set. -/
def ck (n : Nat) (st act inp out : Nat) (s : S) : S := { s with ckt := { s.ckt with ents := [(n, { Ckt.free with ckt := 77, st := BitVec.ofNat 2 st, act := BitVec.ofNat 64 act, inp := BitVec.ofNat 7 inp, out := BitVec.ofNat 7 out })] }, beat := { s.beat with st := .locked, now := 10 } }
/-- A CKT_SETUP. -/
def dSet : List Byte := desc [(0, 0x40), (32, 77), (34, 0x7F), (35, 3), (36, 7), (38, 9), (40, 4), (41, 2), (42, 0), (44, 5), (48, 5000)]
/-- Ports 3 and 5 up. -/
def uPorts (s : S) : S := { s with link := { s.link with ports := [(3, { portGet s 3 with st := .up }), (5, { portGet s 5 with st := .up })] }, rt := { s.rt with slice := 5, chip := 7 } }
/-- A CKT_TEARDOWN. -/
def dTea : List Byte := desc [(0, 0x41), (32, 77)]
/-- The beat in HOLDOVER. -/
def hold (n : Nat) : S := { up with beat := { up.beat with st := .holdover, holdLen := BitVec.ofNat 32 n } }
/-- A CAL_WRITE. -/
def dCal (n h : Nat) : List Byte := desc [(0, 0x60), (4, n), (32, 0x5000), (40, h)]
/-- A CAL_WRITE under way. -/
def calW : S := { up with flash := { up.flash with writing := some (3, [1, 2, 3]), bad := true }, hif := { up.hif with started := [sta (some 0) (dCal 4096 1) .flash] } }
/-- One host range open for reads and writes. -/
def rgd (s : S) : S := { s with hif := { s.hif with hrgnBase := [(0, 0)], hrgnSize := [(0, 0xC000000000100000)] } }
/-- The block with its beat changed, at beat 100. -/
def bt (f : Beat → Beat) : S := { up with beat := f { up.beat with now := 100, start := 5000 } }
/-- A beat marker. -/
def mk0 : Marker := ⟨0, 1, 0, 3, 0⟩
/-- A port whose marker has come whole. -/
def pb0 : PortBeat := { PortBeat.init with marker := some mk0, full := 7777, parts := 15 }
/-- A lease held until beat 900. -/
def leased (s : S) : S := { s with lease := { s.lease with st := 1, expiry := 900 } }
/-- The block with its routing changed. -/
def rtS (f : Route → Route) : S := { up with rt := f { up.rt with drain := 0xFFFF, ageLim := 0x3FFF } }
/-- A fabric region with its enable bits. -/
def rg (e : Nat) : BitVec 256 := BitVec.ofNat 256 (e + 0x500 + 0x10000 * 2^64 + 0x2000 * 2^128 + 0x30000 * 2^192)
/-- The block with regions 3 and 5. -/
def rgS (g : BitVec 256) : S := { up with rmt := { up.rmt with rgn := [(3, g), (5, rg 1)] } }
/-- The block with port p in a state. -/
def pt (p : Nat) (st : PortSt) (f : Port → Port) : S := { up with link := { up.link with ports := [(p, f { portGet up p with st := st })] } }
/-- A read response that came from chip 3. -/
def pkt : Packet := { ownPacket (sliced up) 1 9 0x100 [1,2,3] with src := 3 }
/-- A flit with a sequence number. -/
def fl (sq : BitVec 10) : Flit := ⟨5, sq, 0, 0, false, 2, 1, true, 0, 0, 0, 0, 0, [1, 2]⟩
/-- A lane with two flits unacknowledged. -/
def laneSt : Lane := { Lane.init with txSeq := 12, unack := [(fl 9, 1, pkt), (fl 10, 1, pkt)], resend := [(fl 10, 1, pkt)], rxExp := 9 }
/-- Chip 0 of slice 5, forwarding everything. -/
def perm (s : S) : S := { s with rt := { s.rt with slice := 5, chip := 0, cur := false, bankA := { s.rt.bankA with permit := [(0, 0xFFFFFFFF)], dir := 4, torus := [(0, 0x100), (1, 0x20)] } } }
/-- A packet for chip 0x40. -/
def tpk : Packet := { ownPacket (perm up) 1 0x40 0x100 [1,2,3] with src := 3 }
/-- A packet that has come in on port 4. -/
def arr (k : Packet) (v : Nat) (f : S → S) : S := f (perm { up with link := { up.link with ports := [(4, { portGet up 4 with st := .up, vcs := [(v, { Vc.init v with arr := [k] })] }), (5, { portGet up 5 with st := .up }), (8, { portGet up 8 with st := .up })] } })
/-- A packet looped back to its own chip. -/
def loopS (k : Packet) (f : S → S) : S := f { sliced up with rmt := { (sliced up).rmt with loop := [k], rgn := [(3, rg 0x1F)] } }
/-- A packet from this chip to itself. -/
def lp (t off : Nat) (pl : List Byte) : Packet := { ownPacket (sliced up) t 7 off pl with tag := 9, aux := 3 }
/-- An outstanding request. -/
def ou (t pt0 : Nat) (want : Nat) : Outst := ⟨9, 2, pt0, 7, 0x100, 3, [(0x500, 3)], 0, want, 0, [], []⟩
/-- The operation it belongs to. -/
def oop : RmtOp := { o0 with id := 2, owner := .desc 3, ptype := 0, dst := 7, sent := 3, left := 1 }
/-- An outstanding request and a packet that answers. -/
def ans (k : Packet) (o : Outst) : S := { sliced up with rmt := { (sliced up).rmt with loop := [k], out := [o], ops := [oop], nextOp := 5 }, hif := { up.hif with started := [sta (some 0) (desc [(0, 0x51), (4, 3), (32, 0x100), (38, 9), (40, 0x500)]) .remote] } }
/-- A STREAM_ACK. -/
def sak : Packet := { ownPacket (sliced up) 8 7 9 [] with stream := 77, aux := 7 }
/-- The block waiting for it. -/
def sakS : S := let s : S := { sliced up with shf := { up.shf with jrnlDest := 0x4D0000, jout := [⟨3, 7, 9⟩, ⟨3, 7, 10⟩] }, hif := { up.hif with started := [sta (some 0) dFl .journal] } }; { s with link := { s.link with ports := [(4, { portGet up 4 with st := .up, vcs := [(5, { Vc.init 5 with arr := [sak] })] })] }, rt := { s.rt with resv := 0x10 } }
/-- A mirror entry. -/
def mirE : Mirror := { Mirror.off with partner := 9, pfdom := 2, lbase := 0x10000, size := 0x2000, pbase := 0x30000, cbase := 0x40 }
/-- The block with mirror entry 3. -/
def mirS (m : Mirror) (f : S → S) : S := let s := sliced up; f { s with mir := { s.mir with fdom := 1, ents := [(3, m)] } }
/-- A mirrored range under way. -/
def rng0 : MRange := ⟨0, 3, 0x10100, List.replicate 64 7, false, false⟩
/-- The block with that range. -/
def rngS : S := mirS { mirE with valid := true, st := 2 } (fun s => { s with mir := { s.mir with ranges := [rng0], nextRange := 1 } })
/-- The block with its lease changed. -/
def lsd (f : Lease → Lease) : S := { up with lease := f { up.lease with lastSeq := 5 }, beat := { up.beat with now := 100 }, fence := { up.fence with chips := [3, 9] } }
/-- A reclaim in phase p. -/
def rcl (p : Nat) (f : S → S) : S := f { up with lease := { up.lease with phase := BitVec.ofNat 3 p, deadline := 5000 }, beat := { up.beat with now := 100 } }
/-- Queue 0 set. -/
def qd (q : Queue) (s : S) : S := { s with hif := { s.hif with q := [(0, q)] } }
/-- The block with sheaf 1 changed and its store good. -/
def shs (f : Sheaf → Sheaf) : S := { up with shf := { up.shf with sheaves := [(1, f Sheaf.init)] }, boot := { up.boot with sectOk := 0xFF }, beat := { up.beat with now := 2000000 } }
/-- A grain group of tiller 17 before sheaf 1. -/
def grain : S := engPut (shs (fun x => { x with st := .ready })) 17 { eng0 0 with exec := [⟨.mm, qi 0 (iw 0xF8 6 1 0 0 0x5000) [] [], .running, false, 0, .zero, 0, 0, 0, 0, true⟩] }
/-- The block with a ring changed. -/
def rgS2 (r : RingId) (f : Ring → Ring) : S := loopPut { up with boot := { up.boot with sectOk := 0xFF } } r (f Ring.init)
/-- A drop ring. -/
def rr : RingId := .drop 4 8
/-- The block with bank 1 changed and its port up. -/
def bk (f : Bank → Bank) : S := let s := pt 4 .up id; { s with optics := { s.optics with banks := [(1, f (Bank.init 1))], ports := [(4, { OptPort.init with far := [(2, 0xFD01)] })] } }
/-- The block with an optical port changed. -/
def opp (st : PortSt) (f : OptPort → OptPort) : S := let s := pt 4 st id; { s with optics := { s.optics with ports := [(4, f OptPort.init)] } }
/-- The block with the power of die 1 changed. -/
def pws (f : PwrDie → PwrDie) : S := { up with pwr := { up.pwr with dies := [(1, f PwrDie.init)] }, boot := { up.boot with sectOk := 0xFF } }
/-- The block with one hint, at a beat. -/
def hnt (h : Hint) (now : Nat) (f : Pwr → Pwr) : S := { up with pwr := f { up.pwr with hints := [h] }, beat := { up.beat with now := BitVec.ofNat 64 now } }
/-- The block with a thermal zone changed. -/
def zs (z : Nat) (f : Zone → Zone) : S := { up with thm := { up.thm with zones := [(z, some (f (Zone.fitted z)))] } }
/-- The block with tile 20 and the inventory changed. -/
def til (f : Tile → Tile) (g : Inv → Inv) : S := { up with inv := g { up.inv with tiles := [(20, f Tile.init)] } }
/-- The block with its board changed. -/
def bds (f : Board → Board) : S := { up with board := f up.board }
/-- The block in a start stage. -/
def bts (st : Nat) (f : Boot → Boot) (g : Board → Board) : S := { up with boot := f { up.boot with stage := st }, board := g up.board }
/-- The setup lock set. -/
def lk (s : S) : S := { s with hif := { s.hif with locked := true } }
/-- A management request. -/
def rq0 (ty : Nat) (pl : List Byte) (sr : Option W32) : MgmtMsg := ⟨sr, 1, BitVec.ofNat 8 ty, 0, 77, BitVec.ofNat 32 pl.length, pl⟩
/-- The block with the management controller changed, in a stage. -/
def mg (f : Mgt → Mgt) (st : Nat) : S := { up with mgt := f up.mgt, boot := { up.boot with stage := st } , board := { up.board with aux := true } }
/-- A fault record with a number. -/
def fr0 (n : Nat) : FaultRec := ⟨1,2,3,4,BitVec.ofNat 32 n,5,6,7,8,List.replicate 16 0⟩
/-- The block with the attestation changed. -/
def at1 (f : Spdm → Spdm) (a : Bool) : S := { up with spdm := f up.spdm, board := { up.board with aux := true }, boot := { up.boot with attestOk := a } }
/-- A session past its algorithms. -/
def spA (x : Spdm) : Spdm := { x with version := true, caps := true, algs := true, trans := [1, 2] }
/-- An SPDM request. -/
def sq (l : List Byte) : MgmtMsg := rq0 0x40 l none
/-- An attestation request of n bytes. -/
def rq2 (v c : Nat) (n : Nat) : List Byte := [BitVec.ofNat 8 v, BitVec.ofNat 8 c, 0, 0] ++ List.replicate (n - 4) 0
/-- The block with the debug port and tiller 3 changed. -/
def db (f : Dbg → Dbg) (g : Engine → Engine) : S := { (engPut up 3 (g (eng0 0))) with dbg := f up.dbg, board := { up.board with aux := true } }
/-- The block held in reset with the debug port open. -/
def dbu : S := { up with board := { up.board with aux := true, resetN := false, held := true, coreUndef := false }, dbg := { up.dbg with level := 3 } }
/-- The block with the optics of port 4 past a margin test. -/
def optUp (s : S) : S := { s with optics := { s.optics with ports := [(4, { OptPort.init with mstate := 2, fec := true })] } }
/-- The parts of the identity of a neighbour. -/
def prt (i : Nat) : Tbl Nat := (List.range 10).map (fun j => (j, i + 1 + j))
/-- The identity that those parts hold. -/
def pid (i : Nat) : PeerId := (peerFrom (prt i)).getD ⟨0, 0, 0, false⟩
/-- Port 4 UP with its lane 0. -/
def upL (la : Lane) (v : Tbl Vc) : S := pt 4 .up (fun x => { x with lanes := [(0, la)], vcs := v })
/-- The switch of port 4 in bypass. -/
def byp (s : S) : S := { s with board := { s.board with bypState := 0xFFF } }
/-- Stack 0 is throttled at 90 °C. -/
def hotS : S := { up with ms := { up.ms with stackTab := [(0, { Stack.init with throttle := true })] }, thm := { up.thm with hbm := [(0, 720)] } }
/-- The allow list holds one address. -/
def shutS : S := { at1 id true with mgt := { up.mgt with allow := [(0, 0x200A000001)] } }

/-! Witnesses that need more than evaluation. -/

/-- The parts of the PEER messages of a neighbour with a serial number. -/
def partsOf (ser : BitVec 128) : Tbl Nat := (List.range 8).map (fun i => (i, 1 + ser.toNat / 2 ^ (16 * i) % 65536)) ++ [(8, 5), (9, 3)]
theorem limbs (n m : Nat) : (List.range m).foldl (fun a i => a + (1 + n / 2 ^ (16 * i) % 65536 - 1) * 2 ^ (16 * i)) 0 = n % 2 ^ (16 * m) := by
  induction m with
  | zero => simp [Nat.mod_one]
  | succ m ih =>
    rw [List.range_succ, List.foldl_append, ih, Nat.mul_succ, Nat.pow_add, Nat.mod_mul]
    simp only [List.foldl_cons, List.foldl_nil, Nat.add_sub_cancel_left]
    rw [Nat.mul_comm (2 ^ (16 * m))]
theorem foldl_same (f g : Nat → Nat → Nat) (l : List Nat) (h : ∀ a, ∀ i ∈ l, f a i = g a i) (a : Nat) : l.foldl f a = l.foldl g a := by
  induction l generalizing a with
  | nil => rfl
  | cons i l ih => simp only [List.foldl_cons, h a i (.head _), ih (fun a i hi => h a i (.tail _ hi))]
theorem peerFrom_partsOf (ser : BitVec 128) : peerFrom (partsOf ser) = some ⟨ser, 4, 2, false⟩ := by
  have g (i : Nat) (h : i < 8) : tblGet (fun _ => 0) (partsOf ser) i = 1 + ser.toNat / 2 ^ (16 * i) % 65536 := by
    match i, h with
    | 0, _ => rfl
    | 1, _ => rfl
    | 2, _ => rfl
    | 3, _ => rfl
    | 4, _ => rfl
    | 5, _ => rfl
    | 6, _ => rfl
    | 7, _ => rfl
  have h8 : tblGet (fun _ => 0) (partsOf ser) 8 = 5 := rfl
  have h9 : tblGet (fun _ => 0) (partsOf ser) 9 = 3 := rfl
  have ha : (List.range 10).any (fun i => tblGet (fun _ => 0) (partsOf ser) i == 0) = false := by
    apply List.any_eq_false.mpr
    intro i hi
    have := List.mem_range.mp hi
    by_cases h : i < 8
    · rw [g i h]; simp
    · rcases (by omega : i = 8 ∨ i = 9) with rfl | rfl
      · rw [h8]; decide
      · rw [h9]; decide
  have hf : (List.range 8).foldl (fun n i => n + (tblGet (fun _ => 0) (partsOf ser) i - 1) * 2 ^ (16 * i)) 0 = ser.toNat := by
    rw [← Nat.mod_eq_of_lt ser.isLt, ← limbs ser.toNat 8]
    exact foldl_same _ _ _ (fun n i hi => by rw [g i (List.mem_range.mp hi)]) 0
  simp only [peerFrom, ha, hf, h8, h9, BitVec.ofNat_toNat, BitVec.setWidth_eq]
  rfl

theorem full_none (s : State) (a : Nat) (h : dirGet s (stackOf s a) = []) : fullSets s (stackOf s a) a = [] := by
  simp only [fullSets, h, List.filter_nil, List.length_nil, List.append_eq_nil_iff]
  refine ⟨by simp, ?_⟩
  cases h' : (dirFind [] (a / 256 * 2)).isNone && dirSetOf (a / 256 * 2) == dirSetOf (a / 256 * 2 + 1) <;> simp [b2n]

/-! Witnesses: for every statement with hypotheses, states and operands that meet them, clause by clause. -/

theorem wit_ScalarRegisterResults : ∀ op ∈ [3, 4, 5, 6, 7, 8, 9, 10, 11, 12, 13, 14, 15], Ready (at0 (iw op 1 3 4 0 0)) 0 op := by decide +kernel
theorem wit_ScalarImmediateResults :
    (∀ r ∈ [(0x00, 0, 0, 0), (0x01, 1, 0, 7), (0x02, 1, 2, 7), (0x10, 1, 3, 7), (0x11, 1, 3, 63), (0x12, 1, 3, 63), (0x31, 1, 0, 20), (0x32, 1, 0, 0),
        (0x33, 1, 0, 0), (0x34, 1, 0, 0), (0x35, 1, 63, 0)], Ready (at0 (iw r.1 r.2.1 r.2.2.1 0 0 r.2.2.2)) 0 r.1) ∧
    fld (engGet (at0 (iw 0x31 1 0 0 0 20)) 0).word 64 32 = 20 := by decide +kernel
theorem wit_PredicateResults : ∀ op ∈ [0x24, 0x25, 0x26, 0x27, 0x28, 0x29, 0x2A, 0x2B, 0x2C, 0x2D, 0x2E, 0x2F, 0x30],
    Ready (at0 (iw op 1 2 (if op < 0x2A ∨ 0x2D ≤ op ∧ op < 0x30 then 3 else 0) 0 (if 0x2A ≤ op ∧ op < 0x2D then 7 else 0))) 0 op := by decide +kernel

/-- What a statement asks of the queued instruction `qWords.getD k`: its opcode, its queue, its own encoding rules, its plan. -/
abbrev queuedAt (k op : Nat) (qu : EngQueue) (more : IWord → Bool) (plan : State → Nat → IWord → Plan) : Prop :=
  Ready (atQ (qWords.getD k 0)) 0 op ∧ more (engGet (atQ (qWords.getD k 0)) 0).word = true ∧ (plan (atQ (qWords.getD k 0)) 0 (qWords.getD k 0)).code = 0 ∧
    NoWatch (atQ (qWords.getD k 0)) 0 ((plan (atQ (qWords.getD k 0)) 0 (qWords.getD k 0)).srcs, (plan (atQ (qWords.getD k 0)) 0 (qWords.getD k 0)).dsts) ∧
    ((engGet (atQ (qWords.getD k 0)) 0).queue qu).length < 32 ∧ (engGet (atQ (qWords.getD k 0)) 0).word = qWords.getD k 0
theorem wit_QueuedInstructions :
    (∀ r ∈ [(0, 0x80, noMore, planLoad), (1, 0x81, noMore, planStore), (2, 0x82, noMore, planTload), (3, 0x83, noMore, planCopy),
        (4, 0x84, noMore, planTcopy), (5, 0x85, noMore, planGather), (6, 0x86, noMore, planScatter), (7, 0x87, convMore, planCvt)],
      queuedAt r.1 r.2.1 .mv r.2.2.1 r.2.2.2) ∧
    (∀ r ∈ [(8, 0xA0, statMore, planPut), (9, 0xA1, statMore, planGet), (10, 0xA2, atomMore, planStat), (11, 0x66, statMore, planStat),
        (12, 0xF8, grainMore, planGrain)], queuedAt r.1 r.2.1 .sf r.2.2.1 r.2.2.2) ∧
    (∀ r ∈ [(13, 0xC0), (14, 0xC1), (15, 0xC2), (16, 0xC3), (17, 0xC4), (18, 0xC5)], queuedAt r.1 r.2 .mm mmMore planMm) ∧
    (∀ r ∈ [(19, 0xE0, convMore, planArith), (20, 0xE1, convMore, planArith), (21, 0xE2, convMore, planArith), (22, 0xE3, convMore, planArith),
        (23, 0xE4, convMore, planArith), (24, 0xE5, convMore, planArith), (25, 0xE6, convMore, planArith), (26, 0xE7, convMore, planArith),
        (27, 0xE8, convMore, planCvt), (28, 0xE9, convMore, planReduce), (29, 0xEA, convMore, planReduce), (30, 0xEB, convMore, planNanc),
        (31, 0xEC, convMore, planPopc), (32, 0xED, convMore, planHamm), (33, 0xEE, convMore, planTopk), (34, 0xEF, convMore, planSamp),
        (35, 0xF0, optMore, planOpt), (36, 0xF1, noMore, planTbLoad), (37, 0xF2, convMore, planTable), (38, 0xF3, derMore, planTable),
        (39, 0xF4, convMore, planGg)], queuedAt r.1 r.2.1 .vx r.2.2.1 r.2.2.2) := by
  refine ⟨?_, ?_, ?_, ?_⟩ <;> decide +kernel
theorem wit_QueueFull : (∃ s e op p, Ready s e op ∧ p.code = 0 ∧ NoWatch s e (p.srcs, p.dsts) ∧ mmMore (engGet s e).word = true ∧
      p = planMm s e (engGet s e).word ∧ 32 ≤ (engGet s e).qmm.length ∧ op = 0xC0) ∧
    (∃ s e op p, Ready s e op ∧ p.code = 0 ∧ NoWatch s e (p.srcs, p.dsts) ∧ p = planCopy s e (engGet s e).word ∧ 32 ≤ (engGet s e).qmv.length ∧ op = 0x83) ∧
    (∃ s e op p, Ready s e op ∧ p.code = 0 ∧ NoWatch s e (p.srcs, p.dsts) ∧ convMore (engGet s e).word = true ∧ p = planArith s e (engGet s e).word ∧
      32 ≤ (engGet s e).qvx.length ∧ op = 0xE0) :=
  ⟨⟨fullAt 13, 0, 0xC0, planMm (fullAt 13) 0 (qWords.getD 13 0), by decide +kernel⟩,
   ⟨fullAt 3, 0, 0x83, planCopy (fullAt 3) 0 (qWords.getD 3 0), by decide +kernel⟩,
   ⟨fullAt 19, 0, 0xE0, planArith (fullAt 19) 0 (qWords.getD 19 0), by decide +kernel⟩⟩
theorem wit_ReclaimScrub : ∃ s : State, Up s ∧ s.lease.phase = 4 ∧ s.inv.tiles = [] ∧ ∀ j < stacksOf s, (stackGet s j).ue = [] :=
  ⟨rcl 4 id, by decide +kernel⟩
theorem wit_MemoryStaysCanonical : ∃ s t : State, s.mem.wf = true ∧ step s = .next t := ⟨State.reset, State.reset, by decide +kernel, rfl⟩

/-! Witnesses: `wit_<Name>` for `Obligations.<Name>`, one conjunct for each clause. -/

theorem wit_OwnWindow :
  (∃ (s : State) (e : Nat) (acc : Bool) (off : Nat), BitVec.toNat ((engGet s e).sreg (wB (engGet s e).word) + wSimm (engGet s e).word) % 8 = 0 ∧
    (acc = false ∧ BitVec.toNat ((engGet s e).sreg (wB (engGet s e).word) + wSimm (engGet s e).word) < 25165824 ∧ off = BitVec.toNat ((engGet s
    e).sreg (wB (engGet s e).word) + wSimm (engGet s e).word) ∨ acc = true ∧ 25165824 ≤ BitVec.toNat ((engGet s e).sreg (wB (engGet s e).word) +
    wSimm (engGet s e).word) ∧ BitVec.toNat ((engGet s e).sreg (wB (engGet s e).word) + wSimm (engGet s e).word) < 29360128 ∧ off = BitVec.toNat
    ((engGet s e).sreg (wB (engGet s e).word) + wSimm (engGet s e).word) - 25165824) ∧ Ready s e 19 ∧ NoWatch s e
    ([{ acc := acc, lo := off, hi := off + 8 }], []) ∧ ∀ (i : QInstr), i ∈ (engGet s e).uncompleted → ∀ (f : Foot), f ∈ i.dsts → ¬(f.acc = acc ∧
    f.lo < off + 8 ∧ off < f.hi)) ∧
  (∃ (s : State) (e : Nat) (acc : Bool) (off : Nat), BitVec.toNat ((engGet s e).sreg (wB (engGet s e).word) + wSimm (engGet s e).word) % 8 = 0 ∧
    (acc = false ∧ BitVec.toNat ((engGet s e).sreg (wB (engGet s e).word) + wSimm (engGet s e).word) < 25165824 ∧ off = BitVec.toNat ((engGet s
    e).sreg (wB (engGet s e).word) + wSimm (engGet s e).word) ∨ acc = true ∧ 25165824 ≤ BitVec.toNat ((engGet s e).sreg (wB (engGet s e).word) +
    wSimm (engGet s e).word) ∧ BitVec.toNat ((engGet s e).sreg (wB (engGet s e).word) + wSimm (engGet s e).word) < 29360128 ∧ off = BitVec.toNat
    ((engGet s e).sreg (wB (engGet s e).word) + wSimm (engGet s e).word) - 25165824) ∧ Ready s e 20 ∧ NoWatch s e ([],
    [{ acc := acc, lo := off, hi := off + 8 }]) ∧ ∀ (i : QInstr), i ∈ (engGet s e).uncompleted → ∀ (f : Foot), f ∈ i.srcs ++ i.dsts → ¬(f.acc = acc
    ∧ f.lo < off + 8 ∧ off < f.hi)) ∧
  (∃ (s : State) (e : Nat) (acc : Bool) (off : Nat), BitVec.toNat ((engGet s e).sreg (wB (engGet s e).word) + wSimm (engGet s e).word) % 8 = 0 ∧
    (acc = false ∧ BitVec.toNat ((engGet s e).sreg (wB (engGet s e).word) + wSimm (engGet s e).word) < 25165824 ∧ off = BitVec.toNat ((engGet s
    e).sreg (wB (engGet s e).word) + wSimm (engGet s e).word) ∨ acc = true ∧ 25165824 ≤ BitVec.toNat ((engGet s e).sreg (wB (engGet s e).word) +
    wSimm (engGet s e).word) ∧ BitVec.toNat ((engGet s e).sreg (wB (engGet s e).word) + wSimm (engGet s e).word) < 29360128 ∧ off = BitVec.toNat
    ((engGet s e).sreg (wB (engGet s e).word) + wSimm (engGet s e).word) - 25165824) ∧ Ready s e 19 ∧ NoWatch s e
    ([{ acc := acc, lo := off, hi := off + 8 }], []) ∧ ∃ (i : QInstr), i ∈ (engGet s e).uncompleted ∧ ∃ (f : Foot), f ∈ i.dsts ∧ f.acc = acc ∧ f.lo
    < off + 8 ∧ off < f.hi) ∧
  (∃ (s : State) (e : Nat) (acc : Bool) (off : Nat), BitVec.toNat ((engGet s e).sreg (wB (engGet s e).word) + wSimm (engGet s e).word) % 8 = 0 ∧
    (acc = false ∧ BitVec.toNat ((engGet s e).sreg (wB (engGet s e).word) + wSimm (engGet s e).word) < 25165824 ∧ off = BitVec.toNat ((engGet s
    e).sreg (wB (engGet s e).word) + wSimm (engGet s e).word) ∨ acc = true ∧ 25165824 ≤ BitVec.toNat ((engGet s e).sreg (wB (engGet s e).word) +
    wSimm (engGet s e).word) ∧ BitVec.toNat ((engGet s e).sreg (wB (engGet s e).word) + wSimm (engGet s e).word) < 29360128 ∧ off = BitVec.toNat
    ((engGet s e).sreg (wB (engGet s e).word) + wSimm (engGet s e).word) - 25165824) ∧ Ready s e 20 ∧ NoWatch s e ([],
    [{ acc := acc, lo := off, hi := off + 8 }]) ∧ ∃ (i : QInstr), i ∈ (engGet s e).uncompleted ∧ ∃ (f : Foot), f ∈ i.srcs ++ i.dsts ∧ f.acc = acc ∧
    f.lo < off + 8 ∧ off < f.hi) ∧
  (∃ (s : State) (e : Nat) (acc : Bool) (off : Nat), BitVec.toNat ((engGet s e).sreg (wB (engGet s e).word) + wSimm (engGet s e).word) % 8 = 0 ∧
    (acc = false ∧ BitVec.toNat ((engGet s e).sreg (wB (engGet s e).word) + wSimm (engGet s e).word) < 25165824 ∧ off = BitVec.toNat ((engGet s
    e).sreg (wB (engGet s e).word) + wSimm (engGet s e).word) ∨ acc = true ∧ 25165824 ≤ BitVec.toNat ((engGet s e).sreg (wB (engGet s e).word) +
    wSimm (engGet s e).word) ∧ BitVec.toNat ((engGet s e).sreg (wB (engGet s e).word) + wSimm (engGet s e).word) < 29360128 ∧ off = BitVec.toNat
    ((engGet s e).sreg (wB (engGet s e).word) + wSimm (engGet s e).word) - 25165824) ∧ Ready s e 19 ∧ (engGet s e).owner = none ∧ NoWatch s e
    ([{ acc := acc, lo := off, hi := off + 8 }], []) ∧ ∀ (i : QInstr), i ∈ (engGet s e).uncompleted → ∀ (f : Foot), f ∈ i.dsts → ¬(f.acc = acc ∧
    f.lo < off + 8 ∧ off < f.hi)) ∧
  (∃ (s : State) (e : Nat) (op : Nat) (c : Instr), (BitVec.toNat ((engGet s e).sreg (wB (engGet s e).word) + wSimm (engGet s e).word) % 8 ≠ 0 ∨
    29360128 ≤ BitVec.toNat ((engGet s e).sreg (wB (engGet s e).word) + wSimm (engGet s e).word)) ∧ (engGet s e).owner = none ∧ (op = 19 ∧ (c =
    Instr.sLd { e := e, err := false } ∨ c = Instr.sLd { e := e, err := true }) ∨ op = 20 ∧ c = Instr.sSt e) ∧ Ready s e op) :=
  ⟨⟨at0 (iw 0x13 1 5 0 0 0x17BFFF8), 0, false, 0x17FFFF8, by decide +kernel⟩,
   ⟨at0 (iw 0x14 3 5 0 0 0x17BFFF8), 0, false, 0x17FFFF8, by decide +kernel⟩,
   ⟨at0x (iw 0x13 1 0 0 0 8) (fun g => { g with qmm := [⟨0,0,0,[],[],none,[],[⟨false,0,9⟩],[]⟩]}), 0, false, 8, by decide +kernel⟩,
   ⟨at0x (iw 0x14 1 0 0 0 0x1800008) (fun g => { g with qmm := [⟨0,0,0,[],[],none,[⟨true,12,20⟩],[],[]⟩]}), 0, true, 8, by decide +kernel⟩,
   ⟨at0 (iw 0x13 1 5 0 0 0x17BFFF8), 0, false, 0x17FFFF8, by decide +kernel⟩,
   ⟨at0 (iw 0x13 1 0 0 0 4), 0, 0x13, Instr.sLd ⟨0, false⟩, by decide +kernel⟩⟩
theorem wit_BranchResults :
  (∃ (s : State) (e : Nat), ReadyBranch s e 32 ∧ guardOf (engGet s e).preds (engGet s e).word = true ∧ 0 ≤ ↑(engGet s e).pc.toNat + (BitVec.ofNat
    32 (fld (engGet s e).word 64 32)).toInt ∧ ↑(engGet s e).pc.toNat + (BitVec.ofNat 32 (fld (engGet s e).word 64 32)).toInt < 16384) ∧
  (∃ (s : State) (e : Nat), ReadyBranch s e 32 ∧ guardOf (engGet s e).preds (engGet s e).word = false) ∧
  (∃ (s : State) (e : Nat), ReadyBranch s e 33 ∧ guardOf (engGet s e).preds (engGet s e).word = true ∧ 0 ≤ ↑(engGet s e).pc.toNat + (BitVec.ofNat
    32 (fld (engGet s e).word 64 32)).toInt ∧ ↑(engGet s e).pc.toNat + (BitVec.ofNat 32 (fld (engGet s e).word 64 32)).toInt < 16384) ∧
  (∃ (s : State) (e : Nat), ReadyBranch s e 33 ∧ guardOf (engGet s e).preds (engGet s e).word = false) ∧
  (∃ (s : State) (e : Nat), ReadyBranch s e 34 ∧ guardOf (engGet s e).preds (engGet s e).word = true ∧ BitVec.toNat ((engGet s e).sreg (wB (engGet
    s e).word)) < 16384) ∧
  (∃ (s : State) (e : Nat), ReadyBranch s e 34 ∧ guardOf (engGet s e).preds (engGet s e).word = false) ∧
  (∃ (s : State) (e : Nat), ReadyBranch s e 35 ∧ guardOf (engGet s e).preds (engGet s e).word = true ∧ ((engGet s e).setSreg (wB (engGet s e).word)
    ((engGet s e).sreg (wB (engGet s e).word) - 1)).sreg (wB (engGet s e).word) ≠ 0 ∧ 0 ≤ ↑(engGet s e).pc.toNat + (BitVec.ofNat 32 (fld (engGet s
    e).word 64 32)).toInt ∧ ↑(engGet s e).pc.toNat + (BitVec.ofNat 32 (fld (engGet s e).word 64 32)).toInt < 16384) ∧
  (∃ (s : State) (e : Nat), ReadyBranch s e 35 ∧ (guardOf (engGet s e).preds (engGet s e).word = false ∨ ((engGet s e).setSreg (wB (engGet s
    e).word) ((engGet s e).sreg (wB (engGet s e).word) - 1)).sreg (wB (engGet s e).word) = 0)) ∧
  (∃ (s : State) (e : Nat) (op : Nat) (c : Instr), (engGet s e).owner = none ∧ guardOf (engGet s e).preds (engGet s e).word = true ∧ ((op, c) =
    (32, Instr.br e) ∧ ¬(0 ≤ ↑(engGet s e).pc.toNat + (BitVec.ofNat 32 (fld (engGet s e).word 64 32)).toInt ∧ ↑(engGet s e).pc.toNat + (BitVec.ofNat
    32 (fld (engGet s e).word 64 32)).toInt < 16384) ∨ (op, c) = (33, Instr.brLink e) ∧ ¬(0 ≤ ↑(engGet s e).pc.toNat + (BitVec.ofNat 32 (fld (engGet
    s e).word 64 32)).toInt ∧ ↑(engGet s e).pc.toNat + (BitVec.ofNat 32 (fld (engGet s e).word 64 32)).toInt < 16384) ∨ (op, c) = (34, Instr.brReg
    e) ∧ 16384 ≤ BitVec.toNat ((engGet s e).sreg (wB (engGet s e).word)) ∨ (op, c) = (35, Instr.brDec e) ∧ ((engGet s e).setSreg (wB (engGet s
    e).word) ((engGet s e).sreg (wB (engGet s e).word) - 1)).sreg (wB (engGet s e).word) ≠ 0 ∧ ¬(0 ≤ ↑(engGet s e).pc.toNat + (BitVec.ofNat 32 (fld
    (engGet s e).word 64 32)).toInt ∧ ↑(engGet s e).pc.toNat + (BitVec.ofNat 32 (fld (engGet s e).word 64 32)).toInt < 16384)) ∧ ReadyBranch s e op) :=
  ⟨⟨at0 (iw 0x20 0 0 0 0 5), 0, by decide +kernel⟩,
   ⟨at0 (iw 0x820 0 0 0 0 5), 0, by decide +kernel⟩,
   ⟨at0 (iw 0x21 1 0 0 0 5), 0, by decide +kernel⟩,
   ⟨at0 (iw 0x821 1 0 0 0 5), 0, by decide +kernel⟩,
   ⟨at0 (iw 0x22 0 2 0 0 0), 0, by decide +kernel⟩,
   ⟨at0 (iw 0x822 0 2 0 0 0), 0, by decide +kernel⟩,
   ⟨at0 (iw 0x23 0 2 0 0 4), 0, by decide +kernel⟩,
   ⟨at0 (iw 0x823 0 2 0 0 4), 0, by decide +kernel⟩,
   ⟨at0 (iw 0x20 0 0 0 0 16384), 0, 0x20, Instr.br 0, by decide +kernel⟩⟩
theorem wit_HandlesAndTokens :
  (∃ (s : State) (e : Nat), Ready s e 64) ∧
  (∃ (s : State) (e : Nat), Ready s e 65 ∧ 0 ≤ ↑(fld ((engGet s e).hand (wB (engGet s e).word)) 0 19) + BitVec.toInt ((engGet s e).sreg (wC (engGet
    s e).word)) ∧ ↑(fld ((engGet s e).hand (wB (engGet s e).word)) 0 19) + BitVec.toInt ((engGet s e).sreg (wC (engGet s e).word)) < 2 ^ 19) ∧
  (∃ (s : State) (e : Nat), Ready s e 65 ∧ (↑(fld ((engGet s e).hand (wB (engGet s e).word)) 0 19) + BitVec.toInt ((engGet s e).sreg (wC (engGet s
    e).word)) < 0 ∨ 2 ^ 19 ≤ ↑(fld ((engGet s e).hand (wB (engGet s e).word)) 0 19) + BitVec.toInt ((engGet s e).sreg (wC (engGet s e).word)))) ∧
  (∃ (s : State) (e : Nat), Ready s e 66 ∧ 1 ≤ BitVec.toNat ((engGet s e).sreg (wC (engGet s e).word)) ∧ BitVec.toNat ((engGet s e).sreg (wC
    (engGet s e).word)) ≤ 65535 ∧ 1 ≤ BitVec.toNat ((engGet s e).sreg (wD (engGet s e).word)) ∧ BitVec.toNat ((engGet s e).sreg (wD (engGet s
    e).word)) ≤ 65535) ∧
  (∃ (s : State) (e : Nat), Ready s e 66 ∧ ¬(1 ≤ BitVec.toNat ((engGet s e).sreg (wC (engGet s e).word)) ∧ BitVec.toNat ((engGet s e).sreg (wC
    (engGet s e).word)) ≤ 65535 ∧ 1 ≤ BitVec.toNat ((engGet s e).sreg (wD (engGet s e).word)) ∧ BitVec.toNat ((engGet s e).sreg (wD (engGet s
    e).word)) ≤ 65535)) ∧
  (∃ (s : State) (e : Nat), Ready s e 67) ∧
  (∃ (s : State) (e : Nat), Ready s e 68) ∧
  (∃ (s : State) (e : Nat), Ready s e 97) ∧
  (∃ (s : State) (e : Nat), Ready s e 98 ∧ BitVec.toNat ((engGet s e).sreg (wB (engGet s e).word)) % 2 ^ 32 ≤ BitVec.toNat ((engGet s e).tok (wA
    (engGet s e).word))) ∧
  (∃ (s : State) (e : Nat), Ready s e 98 ∧ BitVec.toNat ((engGet s e).tok (wA (engGet s e).word)) < BitVec.toNat ((engGet s e).sreg (wB (engGet s
    e).word)) % 2 ^ 32) ∧
  (∃ (s : State) (e : Nat), Ready s e 99 ∧ workDue s = false ∧ BitVec.toNat ((engGet s e).sreg (wB (engGet s e).word)) ≤ BitVec.toNat s.beat.now) ∧
  (∃ (s : State) (e : Nat), Ready s e 99 ∧ BitVec.toNat s.beat.now < BitVec.toNat ((engGet s e).sreg (wB (engGet s e).word))) ∧
  (∃ (s : State) (e : Nat), Ready s e 96 ∧ BitVec.toNat ((engGet s e).sreg (wB (engGet s e).word)) < 64 ∧ present s (BitVec.toNat ((engGet s
    e).sreg (wB (engGet s e).word))) = true ∧ (engGet s e).incs.length < 16) ∧
  (∃ (s : State) (e : Nat), Ready s e 96 ∧ BitVec.toNat ((engGet s e).sreg (wB (engGet s e).word)) < 64 ∧ present s (BitVec.toNat ((engGet s
    e).sreg (wB (engGet s e).word))) = true ∧ 16 ≤ (engGet s e).incs.length) ∧
  (∃ (s : State) (e : Nat), Ready s e 100 ∧ (∀ (i : Nat), i ∈ setBits 64 (BitVec.toNat ((engGet s e).sreg (wB (engGet s e).word))) → present s i =
    true) ∧ (engGet s e).incs.length + (setBits 64 (BitVec.toNat ((engGet s e).sreg (wB (engGet s e).word)))).length ≤ 16 ∧ BitVec.toNat ((engGet s
    e).sreg (wC (engGet s e).word)) % 2 ^ 32 ≤ BitVec.toNat ((engGet s e).tok (wA (engGet s e).word))) ∧
  (∃ (s : State) (e : Nat), Ready s e 100 ∧ (∀ (i : Nat), i ∈ setBits 64 (BitVec.toNat ((engGet s e).sreg (wB (engGet s e).word))) → present s i =
    true) ∧ (engGet s e).incs.length + (setBits 64 (BitVec.toNat ((engGet s e).sreg (wB (engGet s e).word)))).length ≤ 16 ∧ BitVec.toNat ((engGet s
    e).tok (wA (engGet s e).word)) < BitVec.toNat ((engGet s e).sreg (wC (engGet s e).word)) % 2 ^ 32) ∧
  (∃ (s : State) (e : Nat), Ready s e 101 ∧ fld (engGet s e).word 64 32 ≠ 0 ∧ ((fld (engGet s e).word 64 32).testBit 0 = true → (engGet s e).qmm =
    []) ∧ ((fld (engGet s e).word 64 32).testBit 1 = true → (engGet s e).qvx = []) ∧ ((fld (engGet s e).word 64 32).testBit 2 = true → (engGet s
    e).qmv = []) ∧ ((fld (engGet s e).word 64 32).testBit 3 = true → (engGet s e).qsf = []) ∧ (engGet s e).exec = []) :=
  ⟨⟨at0 (iw 0x40 1 2 3 0 0), 0, by decide +kernel⟩,
   ⟨at0 (iw 0x41 1 1 2 0 0), 0, by decide +kernel⟩,
   ⟨at0 (iw 0x41 1 1 3 0 0), 0, by decide +kernel⟩,
   ⟨at0 (iw 0x42 1 1 2 4 0), 0, by decide +kernel⟩,
   ⟨at0 (iw 0x42 1 1 5 2 0), 0, by decide +kernel⟩,
   ⟨at0 (iw 0x43 1 2 0 0 1), 0, by decide +kernel⟩,
   ⟨at0 (iw 0x44 1 0 0 0 0), 0, by decide +kernel⟩,
   ⟨at0 (iw 0x61 1 2 0 0 0), 0, by decide +kernel⟩,
   ⟨at0 (iw 0x62 1 0 0 0 0), 0, by decide +kernel⟩,
   ⟨at0 (iw 0x62 1 2 0 0 0), 0, by decide +kernel⟩,
   ⟨at0 (iw 0x63 0 0 0 0 0), 0, by decide +kernel⟩,
   ⟨at0 (iw 0x63 0 2 0 0 0), 0, by decide +kernel⟩,
   ⟨at0 (iw 0x60 1 2 0 0 0), 0, by decide +kernel⟩,
   ⟨at0x (iw 0x60 1 2 0 0 0) (fun g => { g with incs := List.replicate 16 ⟨0,0,0⟩ }), 0, by decide +kernel⟩,
   ⟨at0 (iw 0x64 1 2 0 0 0), 0, by decide +kernel⟩,
   ⟨at0 (iw 0x64 1 2 2 0 0), 0, by decide +kernel⟩,
   ⟨at0 (iw 0x65 0 0 0 0 15), 0, by decide +kernel⟩⟩
theorem wit_ControlCoreEnds :
  (∃ (s : State) (e : Nat) (i : Inc) (rest : List Inc), Up s ∧ NoneDue s ∧ (engGet s e).incs = i :: rest ∧ (∀ (q : QInstr), q ∈ (engGet s
    e).uncompleted → i.ord ≤ q.ord) ∧ present s i.target = true ∧ (engGet (engPut s e { engGet s e with incs := rest }) i.target).tok i.tok ≠
    BitVec.allOnes 32) ∧
  (∃ (s : State) (e : Nat), Ready s e 103 ∧ BitVec.toNat s.beat.now < BitVec.toNat ((engGet s e).sreg (wB (engGet s e).word))) ∧
  (∃ (s : State) (e : Nat), Ready s e 103 ∧ BitVec.toNat ((engGet s e).sreg (wB (engGet s e).word)) ≤ BitVec.toNat s.beat.now ∧ BitVec.toNat
    s.beat.now < BitVec.toNat ((engGet s e).sreg (wB (engGet s e).word)) + BitVec.toNat ((engGet s e).sreg (wC (engGet s e).word)) % 2 ^ 32) ∧
  (∃ (s : State) (e : Nat), Ready s e 103 ∧ BitVec.toNat ((engGet s e).sreg (wB (engGet s e).word)) + BitVec.toNat ((engGet s e).sreg (wC (engGet s
    e).word)) % 2 ^ 32 ≤ BitVec.toNat s.beat.now ∧ BitVec.toNat ((engGet s e).sreg (wB (engGet s e).word)) ≤ BitVec.toNat s.beat.now) ∧
  (∃ (s : State) (e : Nat), Ready s e 63 ∧ (engGet s e).owner = none ∧ (engGet s e).drained = true) ∧
  (∃ (s : State) (e : Nat), Ready s e 63 ∧ (engGet s e).owner = none ∧ (engGet s e).drained = false) :=
  ⟨⟨at0x 0 (fun g => { g with incs := [⟨3, 5, 4⟩, ⟨0,0,9⟩] }), 0, ⟨3, 5, 4⟩, [⟨0,0,9⟩], by decide +kernel⟩,
   ⟨at0 (iw 0x67 0 2 4 0 9), 0, by decide +kernel⟩,
   ⟨{ at0 (iw 0x67 0 2 4 0 9) with beat := { up.beat with now := 8 } }, 0, by decide +kernel⟩,
   ⟨{ at0 (iw 0x67 0 2 4 0 9) with beat := { up.beat with now := 72 } }, 0, by decide +kernel⟩,
   ⟨at0 (iw 0x3f 0 0 0 0 0), 0, by decide +kernel⟩,
   ⟨at0x (iw 0x3f 0 0 0 0 0) (fun g => { g with qmm := [⟨0,0,0,[],[],none,[],[⟨false,0,9⟩],[]⟩]}), 0, by decide +kernel⟩⟩
theorem wit_GuardedDispatch :
  (∃ (s : State) (e : Nat) (r : Nat × Instr), r ∈ dispatchRows e ∧ Up s ∧ NoneDue s ∧ (canDispatch s e = false ∨ wOp (engGet s e).word ≠ r.fst)) ∧
  (∃ (s : State) (e : Nat) (r : Nat × Instr), r ∈ dispatchRows e ∧ Up s ∧ NoneDue s ∧ canDispatch s e = true ∧ wOp (engGet s e).word = r.fst ∧
    (engGet s e).bar = none ∧ ((engGet s e).skip = true ∨ bpHit (engGet s e) = none) ∧ (engGet s e).single = false ∧ (r.fst < 32 ∨ 36 ≤ r.fst) ∧
    guardOf (engGet s e).preds (engGet s e).word = false ∧ encodingGood (engGet s e).word (ownRules r.fst) = true) :=
  ⟨⟨at0 (iw 4 1 2 3 0 0), 0, ((0x03, .sAdd 0) : Nat × Instr), by decide +kernel⟩,
   ⟨at0 (iw 0x803 1 2 3 0 0), 0, ((0x03, .sAdd 0) : Nat × Instr), by decide +kernel⟩⟩
theorem wit_IllegalEncodingRaises :
  (∃ (s : State) (e : Nat) (r : Nat × Instr), Up s ∧ NoneDue s ∧ canDispatch s e = true ∧ (engGet s e).bar = none ∧ (engGet s e).owner = none ∧
    ((engGet s e).skip = true ∨ bpHit (engGet s e) = none) ∧ r ∈ dispatchRows e ∧ wOp (engGet s e).word = r.fst ∧ (encodingGood (engGet s e).word
    fun (x : IWord) => true) = false) ∧
  (∃ (s : State) (e : Nat), Up s ∧ NoneDue s ∧ canDispatch s e = true ∧ (engGet s e).bar = none ∧ (engGet s e).owner = none ∧ ((engGet s e).skip =
    true ∨ bpHit (engGet s e) = none) ∧ opSpec (wOp (engGet s e).word) = none) :=
  ⟨⟨at0 (iw 0x03 63 0 0 0 0), 0, ((0x03, .sAdd 0) : Nat × Instr), by decide +kernel⟩,
   ⟨at0 0x1E, 0, by decide +kernel⟩⟩
theorem wit_BreakpointHalts :
  ∃ (s : State) (e : Nat) (k : Nat) (r : Nat × Instr), Up s ∧ NoneDue s ∧ canDispatch s e = true ∧ (engGet s e).bar = none ∧ (engGet s e).skip =
    false ∧ bpHit (engGet s e) = some k ∧ r ∈ dispatchRows e ∧ wOp (engGet s e).word = r.fst :=
  ⟨at0x (iw 3 1 2 3 0 0) (fun g => { g with bps := [(5, 0x8000000000000000)] }), 0, 5, ((0x03, .sAdd 0) : Nat × Instr), by decide +kernel⟩
theorem wit_InstructionIssues :
  (∃ (s : State) (e : Nat) (qu : EngQueue) (freed : List EngQueue) (i : QInstr) (rest : List QInstr), Idle s ∧ present s e = true ∧ ((issuesOver
    freed (engGet s e)).st = RunSt.running ∨ (issuesOver freed (engGet s e)).st = RunSt.halted) ∧ (issuesOver freed (engGet s e)).queue qu = i ::
    rest ∧ (∀ (j : QInstr), j ∈ (issuesOver freed (engGet s e)).uncompleted → j.ord < i.ord → ∀ (f : Foot), f ∈ j.dsts → ∀ (k : Foot), k ∈ i.srcs →
    ¬(f.acc = k.acc ∧ f.lo < k.hi ∧ k.lo < f.hi)) ∧ (∀ (j : QInstr), j ∈ (issuesOver freed (engGet s e)).uncompleted → j.ord < i.ord → ∀ (f : Foot),
    f ∈ j.srcs ++ j.dsts → ∀ (k : Foot), k ∈ i.dsts → ¬(f.acc = k.acc ∧ f.lo < k.hi ∧ k.lo < f.hi)) ∧ tokOk (issuesOver freed (engGet s e)) i = true
    ∧ unitRoom s e (issuesOver freed (engGet s e)) qu = true ∧ claimFits (issuesOver freed (engGet s e)) qu i = true ∧ (qu = EngQueue.vx → mmFirst s
    e (issuesOver freed (engGet s e)) i = false) ∧ checkIssue s e i = none ∧ wOp i.word ≠ 160 ∧ wOp i.word ≠ 161 ∧ wOp i.word ≠ 162 ∧ wOp i.word ≠
    102) ∧
  (∃ (s : State) (e : Nat) (qu : EngQueue) (freed : List EngQueue) (i : QInstr) (rest : List QInstr), Idle s ∧ present s e = true ∧ ((issuesOver
    freed (engGet s e)).st = RunSt.running ∨ (issuesOver freed (engGet s e)).st = RunSt.halted) ∧ (issuesOver freed (engGet s e)).queue qu = i ::
    rest ∧ ∃ (j : QInstr), j ∈ (issuesOver freed (engGet s e)).uncompleted ∧ j.ord < i.ord ∧ ∃ (f : Foot), f ∈ j.dsts ∧ ∃ (k : Foot), k ∈ i.srcs ∧
    f.acc = k.acc ∧ f.lo < k.hi ∧ k.lo < f.hi) ∧
  (∃ (s : State) (e : Nat) (qu : EngQueue) (freed : List EngQueue) (i : QInstr) (rest : List QInstr), Idle s ∧ present s e = true ∧ ((issuesOver
    freed (engGet s e)).st = RunSt.running ∨ (issuesOver freed (engGet s e)).st = RunSt.halted) ∧ (issuesOver freed (engGet s e)).queue qu = i ::
    rest ∧ (∀ (j : QInstr), j ∈ (issuesOver freed (engGet s e)).uncompleted → j.ord < i.ord → ∀ (f : Foot), f ∈ j.dsts → ∀ (k : Foot), k ∈ i.srcs →
    ¬(f.acc = k.acc ∧ f.lo < k.hi ∧ k.lo < f.hi)) ∧ ∃ (j : QInstr), j ∈ (issuesOver freed (engGet s e)).uncompleted ∧ j.ord < i.ord ∧ ∃ (f : Foot),
    f ∈ j.srcs ++ j.dsts ∧ ∃ (k : Foot), k ∈ i.dsts ∧ f.acc = k.acc ∧ f.lo < k.hi ∧ k.lo < f.hi) ∧
  (∃ (s : State) (e : Nat) (qu : EngQueue) (freed : List EngQueue) (i : QInstr) (rest : List QInstr), Idle s ∧ present s e = true ∧ ((issuesOver
    freed (engGet s e)).st = RunSt.running ∨ (issuesOver freed (engGet s e)).st = RunSt.halted) ∧ (issuesOver freed (engGet s e)).queue qu = i ::
    rest ∧ (∀ (j : QInstr), j ∈ (issuesOver freed (engGet s e)).uncompleted → j.ord < i.ord → ∀ (f : Foot), f ∈ j.dsts → ∀ (k : Foot), k ∈ i.srcs →
    ¬(f.acc = k.acc ∧ f.lo < k.hi ∧ k.lo < f.hi)) ∧ (∀ (j : QInstr), j ∈ (issuesOver freed (engGet s e)).uncompleted → j.ord < i.ord → ∀ (f : Foot),
    f ∈ j.srcs ++ j.dsts → ∀ (k : Foot), k ∈ i.dsts → ¬(f.acc = k.acc ∧ f.lo < k.hi ∧ k.lo < f.hi)) ∧ tokOk (issuesOver freed (engGet s e)) i =
    false) ∧
  (∃ (s : State) (e : Nat) (qu : EngQueue) (freed : List EngQueue) (i : QInstr) (rest : List QInstr), Idle s ∧ present s e = true ∧ ((issuesOver
    freed (engGet s e)).st = RunSt.running ∨ (issuesOver freed (engGet s e)).st = RunSt.halted) ∧ (issuesOver freed (engGet s e)).queue qu = i ::
    rest ∧ (∀ (j : QInstr), j ∈ (issuesOver freed (engGet s e)).uncompleted → j.ord < i.ord → ∀ (f : Foot), f ∈ j.dsts → ∀ (k : Foot), k ∈ i.srcs →
    ¬(f.acc = k.acc ∧ f.lo < k.hi ∧ k.lo < f.hi)) ∧ (∀ (j : QInstr), j ∈ (issuesOver freed (engGet s e)).uncompleted → j.ord < i.ord → ∀ (f : Foot),
    f ∈ j.srcs ++ j.dsts → ∀ (k : Foot), k ∈ i.dsts → ¬(f.acc = k.acc ∧ f.lo < k.hi ∧ k.lo < f.hi)) ∧ tokOk (issuesOver freed (engGet s e)) i = true
    ∧ unitRoom s e (issuesOver freed (engGet s e)) qu = false) :=
  ⟨⟨at0x 0 (fun g =>
    { g with qvx := [qi 3 (iw 0xE0 1 2 3 0 0) [⟨false, 0, 64⟩] [⟨false, 64, 128⟩]], exec := [{ xi .vx .running (qi 1 (iw 0xE0 1 2 3 0 0) [] []) with issuing := true }] }),
    0, EngQueue.vx, [EngQueue.vx], qi 3 (iw 0xE0 1 2 3 0 0) [⟨false, 0, 64⟩] [⟨false, 64, 128⟩], ([] : List QInstr), by decide +kernel⟩,
   ⟨at0x 0 (fun g => { g with qvx := [qi 3 (iw 0xE0 1 2 3 0 0) [⟨false, 0, 64⟩] [⟨false, 64, 128⟩]], qmm := [qi 1 0 [] [⟨false, 63, 64⟩]] }), 0,
    EngQueue.vx, default, qi 3 (iw 0xE0 1 2 3 0 0) [⟨false, 0, 64⟩] [⟨false, 64, 128⟩], ([] : List QInstr), by decide +kernel⟩,
   ⟨at0x 0 (fun g =>
    { g with qmv := [qi 3 (iw 0x83 1 2 0 0 0) [⟨false, 0, 64⟩] [⟨false, 64, 128⟩]], exec := [xi .mm .running (qi 1 0 [⟨false, 127, 129⟩] [⟨true, 0, 64⟩])] }),
    0, EngQueue.mv, ([] : List EngQueue), qi 3 (iw 0x83 1 2 0 0 0) [⟨false, 0, 64⟩] [⟨false, 64, 128⟩], ([] : List QInstr), by decide +kernel⟩,
   ⟨at0x 0 (fun g => { g with qmv := [{ qi 3 (iw 0x83 1 2 0 0 0) [⟨false, 0, 64⟩] [⟨false, 64, 128⟩] with tokc := some (3, 5) }] }), 0, EngQueue.mv,
    ([] : List EngQueue), { qi 3 (iw 0x83 1 2 0 0 0) [⟨false, 0, 64⟩] [⟨false, 64, 128⟩] with tokc := some (3, 5) }, ([] : List QInstr), by decide +kernel⟩,
   ⟨at0x 0 (fun g =>
    { g with qvx := [qi 3 (iw 0xE0 1 2 3 0 0) [⟨false, 0, 64⟩] [⟨false, 64, 128⟩]], exec := [{ xi .vx .running (qi 1 (iw 0xE0 1 2 3 0 0) [] []) with issuing := true }] }),
    0, EngQueue.vx, ([] : List EngQueue), qi 3 (iw 0xE0 1 2 3 0 0) [⟨false, 0, 64⟩] [⟨false, 64, 128⟩], ([] : List QInstr), by decide +kernel⟩⟩
theorem wit_InstructionCompletes :
  (∃ (s : State) (e : Nat) (k : Nat) (x : XInstr), Idle s ∧ present s e = true ∧ (engGet s e).st = RunSt.running ∧ (engGet s e).ending = false ∧
    (engGet s e).exc = none ∧ x ∈ (engGet s e).exec ∧ x.i.ord = k ∧ (∀ (y : XInstr), y ∈ (engGet s e).exec → y.i.ord = k → y = x) ∧ x.qu =
    EngQueue.mv ∧ x.stage = XStage.moved ∧ (readsHbm x.i = true ∨ writesHbm x.i = true) ∧ (wOp x.i.word ≠ 131 ∧ wOp x.i.word ≠ 132 ∧ wOp x.i.word ≠
    135) ∧ x.i.word.getLsbD 24 = false) ∧
  (∃ (s : State) (e : Nat) (k : Nat) (x : XInstr), Idle s ∧ present s e = true ∧ (engGet s e).st = RunSt.running ∧ (engGet s e).ending = false ∧
    (engGet s e).exc = none ∧ x ∈ (engGet s e).exec ∧ x.i.ord = k ∧ (∀ (y : XInstr), y ∈ (engGet s e).exec → y.i.ord = k → y = x) ∧ x.qu =
    EngQueue.mv ∧ x.stage = XStage.moved ∧ (readsHbm x.i = true ∨ writesHbm x.i = true) ∧ (wOp x.i.word ≠ 131 ∧ wOp x.i.word ≠ 132 ∧ wOp x.i.word ≠
    135) ∧ x.i.word.getLsbD 24 = true ∧ (engGet s e).tok (fld x.i.word 25 6) ≠ BitVec.allOnes 32) :=
  ⟨⟨at0x 0 (fun g => { g with exec := [xi .mv .moved (qi 3 (iw 0x80 1 0 7 0 0) [] [⟨false, 64, 128⟩]), xi .mm .running (qi 1 0 [] [])] }), 0, 3, xi
    .mv .moved (qi 3 (iw 0x80 1 0 7 0 0) [] [⟨false, 64, 128⟩]), by decide +kernel⟩,
   ⟨at0x 0 (fun g => { g with exec := [xi .mv .moved (qi 3 (iw 0x07000081 1 0 7 0 0) [] [⟨false, 64, 128⟩]), xi .mm .running (qi 1 0 [] [])] }), 0,
    3, xi .mv .moved (qi 3 (iw 0x07000081 1 0 7 0 0) [] [⟨false, 64, 128⟩]), by decide +kernel⟩⟩
theorem wit_TransfersAndGrains :
  (∃ (s : State) (e : Nat) (k : Nat) (a : Nat) (off : Nat) (n : Nat) (x : XInstr), Idle s ∧ issuedFind (engGet s e) k = some x ∧ x.qu = EngQueue.mv
    ∧ x.stage = XStage.running ∧ x.i.taint = [] ∧ transferRuns s e x.i = [(a, off, n)] ∧ hbmOk s a n = true ∧ 0 < n ∧ Sound s ∧ wOp x.i.word = 128 ∧
    readsHbm x.i = true) ∧
  (∃ (s : State) (e : Nat) (k : Nat) (a : Nat) (off : Nat) (n : Nat) (x : XInstr), Idle s ∧ issuedFind (engGet s e) k = some x ∧ x.qu = EngQueue.mv
    ∧ x.stage = XStage.running ∧ x.i.taint = [] ∧ transferRuns s e x.i = [(a, off, n)] ∧ hbmOk s a n = true ∧ 0 < n ∧ Sound s ∧ wOp x.i.word = 129 ∧
    writesHbm x.i = true) ∧
  (∃ (s : State) (e : Nat) (k : Nat) (n : Nat) (x : XInstr), Idle s ∧ issuedFind (engGet s e) k = some x ∧ wOp x.i.word = 248 ∧ x.lock = true ∧
    x.rows < x.i.slabA.rows ∧ x.rows < 64 * x.granted ∧ n = min 64 (x.i.slabA.rows - x.rows)) :=
  ⟨⟨{ at0x 0 (fun g => { g with exec := [row1 0x80] }) with mem := ⟨[(3, 9), (300, 1)], []⟩ }, 0, 3, 0, 0x4000, 256, row1 0x80, by decide +kernel⟩,
   ⟨{ at0x 0 (fun g => { g with exec := [row1 0x81] }) with mem := ⟨[(0x010000000000 + 0x4003, 9), (300, 1)], []⟩ }, 0, 3, 0, 0x4000, 256, row1 0x81, by decide +kernel⟩,
   ⟨at0x 0 (fun g => { g with exec := [grain0] }), 0, 3, 16, grain0, by decide +kernel⟩⟩
theorem wit_ArbiterDecisions :
  (∃ (s : State) (k : Nat) (i : Nat) (r : Nat), Idle s ∧ (k = 0 ∨ k = 1 ∨ k = 2 ∨ k = 3 ∨ k = 6) ∧ i < arbInstances s k ∧ mayAsk s k i r = true ∧
    linkLost s k i = false ∧ (arbGet s k i).reqs = [] ∧ 0 < weightOf s k r ∧ 0 < starveTh s k ∧ (k = 0 → (stackGet s (i / 32)).throttle = false)) ∧
  (∃ (s : State) (k : Nat) (i : Nat) (r : Nat), Idle s ∧ (k = 0 ∨ k = 1 ∨ k = 2 ∨ k = 3 ∨ k = 6) ∧ i < arbInstances s k ∧ mayAsk s k i r = true ∧
    linkLost s k i = false ∧ (arbGet s k i).reqs = [] ∧ 0 < weightOf s k r ∧ 0 < starveTh s k ∧ k = 0 ∧ (stackGet s (i / 32)).throttle = true ∧
    (withholds s k i).fst = true) ∧
  (∃ (s : State) (k : Nat) (i : Nat) (r : Nat) (x : Nat), Idle s ∧ (k = 0 ∨ k = 1 ∨ k = 2 ∨ k = 3) ∧ i < arbInstances s k ∧ r < x ∧ mayAsk s k i r
    = true ∧ mayAsk s k i x = true ∧ linkLost s k i = false ∧ (k = 0 → (stackGet s (i / 32)).throttle = false) ∧ (arbGet s k i).reqs = [] ∧ (arbGet
    s k i).p ≤ r ∧ tblGet (fun (x : Nat) => 0) (arbGet s k i).used r < weightOf s k r ∧ (if k = 0 then if r = 68 then 3 else 10 else 1) < starveTh s
    k) ∧
  (∃ (s : State) (k : Nat) (g : Nat) (v : W32), FwRuns s ∧ k < 7 ∧ g < 16 ∧ ∀ (i : Nat), i < 8 → assigned s k (8 * g + i) = true → fld v (4 * i) 4
    ≠ 0) ∧
  (∃ (s : State) (k : Nat) (g : Nat) (v : W32), FwRuns s ∧ k < 7 ∧ g < 16 ∧ ∃ (i : Nat), i < 8 ∧ assigned s k (8 * g + i) = true ∧ fld v (4 * i) 4
    = 0) :=
  ⟨⟨up, 0, 0, 64, by decide +kernel⟩,
   ⟨hotS, 0, 0, 0, by decide +kernel⟩,
   ⟨up, 0, 0, 64, 65, by decide +kernel⟩,
   ⟨up, 3, 0, default, by decide +kernel⟩,
   ⟨hotS, 0, 0, default, by decide +kernel⟩⟩
theorem wit_PlacementWrites :
  (∃ (s : State) (n : Nat) (v : W32), FwRuns s ∧ n < regionsOf s ∧ (placeGet s n).cls = 0 ∧
    { cls := BitVec.ofNat 2 (fld v 0 2), die := BitVec.ofNat 2 (fld v 4 2), stack := BitVec.ofNat 4 (fld v 8 4), nc := BitVec.getLsbD v 12, err := (placeGet s n).err && !BitVec.getLsbD v 30, pending := (placeGet s n).pending : Place }.cls
    ≠ 0 ∧ placeRefused s n (placeGet s n)
    { cls := BitVec.ofNat 2 (fld v 0 2), die := BitVec.ofNat 2 (fld v 4 2), stack := BitVec.ofNat 4 (fld v 8 4), nc := BitVec.getLsbD v 12, err := (placeGet s n).err && !BitVec.getLsbD v 30, pending := (placeGet s n).pending : Place }
    = false) ∧
  (∃ (s : State) (n : Nat) (v : W32), FwRuns s ∧ n < regionsOf s ∧
    { cls := BitVec.ofNat 2 (fld v 0 2), die := BitVec.ofNat 2 (fld v 4 2), stack := BitVec.ofNat 4 (fld v 8 4), nc := BitVec.getLsbD v 12, err := (placeGet s n).err && !BitVec.getLsbD v 30, pending := (placeGet s n).pending : Place }.cls
    ≠ 0 ∧
    { cls := BitVec.ofNat 2 (fld v 0 2), die := BitVec.ofNat 2 (fld v 4 2), stack := BitVec.ofNat 4 (fld v 8 4), nc := BitVec.getLsbD v 12, err := (placeGet s n).err && !BitVec.getLsbD v 30, pending := (placeGet s n).pending : Place }
    ≠
    { cls := (placeGet s n).cls, die := (placeGet s n).die, stack := (placeGet s n).stack, nc := (placeGet s n).nc, err := { cls := BitVec.ofNat 2 (fld v 0 2), die := BitVec.ofNat 2 (fld v 4 2), stack := BitVec.ofNat 4 (fld v 8 4), nc := BitVec.getLsbD v 12, err := (placeGet s n).err && !BitVec.getLsbD v 30, pending := (placeGet s n).pending : Place }.err, pending := (placeGet s n).pending : Place }
    ∧ placeRefused s n (placeGet s n)
    { cls := BitVec.ofNat 2 (fld v 0 2), die := BitVec.ofNat 2 (fld v 4 2), stack := BitVec.ofNat 4 (fld v 8 4), nc := BitVec.getLsbD v 12, err := (placeGet s n).err && !BitVec.getLsbD v 30, pending := (placeGet s n).pending : Place }
    = true) ∧
  (∃ (s : State) (n : Nat) (v : W32), FwRuns s ∧ n < regionsOf s ∧ (placeGet s n).cls ≠ 0 ∧ (placeGet s n).pending = false ∧
    { cls := BitVec.ofNat 2 (fld v 0 2), die := BitVec.ofNat 2 (fld v 4 2), stack := BitVec.ofNat 4 (fld v 8 4), nc := BitVec.getLsbD v 12, err := (placeGet s n).err && !BitVec.getLsbD v 30, pending := (placeGet s n).pending : Place }.cls
    = 0) ∧
  (∃ (s : State) (n : Nat) (v : W32), FwRuns s ∧ n < regionsOf s ∧ (placeGet s n).pending = true ∧
    { cls := BitVec.ofNat 2 (fld v 0 2), die := BitVec.ofNat 2 (fld v 4 2), stack := BitVec.ofNat 4 (fld v 8 4), nc := BitVec.getLsbD v 12, err := (placeGet s n).err && !BitVec.getLsbD v 30, pending := (placeGet s n).pending : Place }.cls
    = 0) ∧
  (∃ (s : State) (n : Nat), FwRuns s ∧ n < regionsOf s ∧ (placeGet s n).pending = true) :=
  ⟨⟨plc 5 ⟨0, 0, 0, false, false, false⟩, 5, 2#32, by decide +kernel⟩,
   ⟨plc 5 ⟨0, 0, 0, false, false, false⟩, 5, 0x21#32, by decide +kernel⟩,
   ⟨plc 5 ⟨0, 0, 0, false, false, false⟩, 359, 0#32, by decide +kernel⟩,
   ⟨plc 5 ⟨1, 2, 0, false, false, true⟩, 5, 0#32, by decide +kernel⟩,
   ⟨plc 5 ⟨1, 2, 0, false, false, true⟩, 5, by decide +kernel⟩⟩
theorem wit_RepairCommands :
  (∃ (s : State), FwRuns s ∧ s.ms.busy = false ∧ hbmOk s (fld s.ms.repairAddr 0 48) 1 = true ∧ (stackGet s (stackOf s (fld s.ms.repairAddr 0
    48))).pool ≠ 0 ∧ readFails s (4096 * (fld s.ms.repairAddr 0 48 / 4096)) 4096 = false) ∧
  (∃ (s : State), FwRuns s ∧ s.ms.busy = false ∧ hbmOk s (fld s.ms.repairAddr 0 48) 1 = true ∧ (stackGet s (stackOf s (fld s.ms.repairAddr 0
    48))).pool ≠ 0 ∧ (stackGet s (stackOf s (fld s.ms.repairAddr 0 48))).lost = false) ∧
  (∃ (s : State), FwRuns s ∧ s.ms.busy = false ∧ hbmOk s (fld s.ms.repairAddr 0 48) 1 = true ∧ (stackGet s (stackOf s (fld s.ms.repairAddr 0
    48))).lost = false ∧ s.ms.bad = [] ∧ ¬unitBank (fld s.ms.repairAddr 0 48 / 4096) ∈ (stackGet s (stackOf s (fld s.ms.repairAddr 0 48))).soft) ∧
  (∃ (s : State), FwRuns s ∧ s.ms.busy = false ∧ hbmPop s (fld s.ms.repairAddr 0 48) 1 = true ∧ repairStack s (fld s.ms.repairAddr 0 48) < stacksOf
    s ∧ (stackGet s (repairStack s (fld s.ms.repairAddr 0 48))).maint = true) ∧
  (∃ (s : State), FwRuns s ∧ s.ms.busy = true) ∧
  (∃ (s : State) (c : Instr), FwRuns s ∧ s.ms.busy = true ∧ (c = Instr.retire ∨ c = Instr.retireDiscard ∨ c = Instr.softPpr ∨ c = Instr.hardPpr)) :=
  ⟨⟨repS id, by decide +kernel⟩,
   ⟨repS id, by decide +kernel⟩,
   ⟨repS id, by decide +kernel⟩,
   ⟨repS (stk (fun k => { k with maint := true })), by decide +kernel⟩,
   ⟨repS (fun m => { m with busy := true, pend := 3 }), by decide +kernel⟩,
   ⟨repS (fun m => { m with busy := true, pend := 3 }), Instr.retire, by decide +kernel⟩⟩
theorem wit_ScrubAndMaintenance :
  (∃ (s : State) (addr : Nat), Up s ∧ BitVec.getLsbD s.ms.ctrl 0 = true ∧ hbmOk s (addr / 256 * 256) 256 = true ∧ touchesLost s (addr / 256 * 256)
    256 = false ∧ badIn s (addr / 256 * 256) 256 = []) ∧
  (∃ (s : State) (addr : Nat) (w : Nat), Up s ∧ BitVec.getLsbD s.ms.ctrl 0 = true ∧ hbmOk s (addr / 256 * 256) 256 = true ∧ touchesLost s (addr /
    256 * 256) 256 = false ∧ badIn s (addr / 256 * 256) 256 = [] ∧ w % 8 = 0 ∧ addr / 256 * 256 ≤ w ∧ w < addr / 256 * 256 + 256) ∧
  (∃ (s : State) (addr : Nat) (w : Nat), Up s ∧ BitVec.getLsbD s.ms.ctrl 0 = true ∧ hbmOk s (addr / 256 * 256) 256 = true ∧ touchesLost s (addr /
    256 * 256) 256 = false ∧ badIn s (addr / 256 * 256) 256 = [w]) ∧
  (∃ (s : State) (j : Nat) (v : W32), j < stacksOf s ∧ FwRuns s ∧ s.hif.locked = false ∧ s.ms.maint = 0 ∧ v = BitVec.ofNat 32 (2 ^ j) ∧ mayMaintain
    s j = true) ∧
  (∃ (s : State) (j : Nat), j < stacksOf s ∧ FwRuns s ∧ s.hif.locked = true) ∧
  (∃ (s : State) (j : Nat), j < stacksOf s ∧ Up s ∧ (stackGet s j).training = true ∧ (stackGet s j).ue = []) ∧
  (∃ (s : State) (j : Nat), j < stacksOf s ∧ Up s ∧ (stackGet s j).training = true) ∧
  (∃ (s : State) (j : Nat) (v : W32), j < stacksOf s ∧ FwRuns s ∧ fld v 0 4 = j ∧ s.ms.t1500Busy = false ∧ (stackGet s j).maint = true) ∧
  (∃ (s : State) (j : Nat), j < stacksOf s ∧ Up s ∧ s.ms.t1500Busy = true) :=
  ⟨⟨up, 0, by decide +kernel⟩,
   ⟨up, 0, 40, by decide +kernel⟩,
   ⟨{ up with ms := { up.ms with bad := [40] } }, 0, 40, by decide +kernel⟩,
   ⟨{ up with ms := unas up.ms }, 0, 1#32, by decide +kernel⟩,
   ⟨{ up with hif := { up.hif with locked := true } }, 0, by decide +kernel⟩,
   ⟨{ up with ms := stk (fun k => { k with maint := true, training := true }) up.ms }, 0, by decide +kernel⟩,
   ⟨{ up with ms := stk (fun k => { k with maint := true, training := true }) up.ms }, 0, by decide +kernel⟩,
   ⟨{ up with ms := stk (fun k => { k with maint := true, training := true }) up.ms }, 0, 32#32, by decide +kernel⟩,
   ⟨{ up with ms := { up.ms with t1500Busy := true, t1500Ctrl := 0x3000 } }, 0, by decide +kernel⟩⟩
theorem wit_CacheProtocol :
  (∃ (s : State) (d : Nat) (a : Nat), Up s ∧ d < 4 ∧ cacheable s d a = true ∧ ¬a / 128 ∈ cacheGet s d ∧ stackInvOf s (stackOf s a) = 0 ∧ readFails
    s (a / 256 * 256) 256 = false ∧ fullSets s (stackOf s a) a = []) ∧
  (∃ (s : State) (d : Nat) (a : Nat), Up s ∧ d < 4 ∧ (d, a / 256) ∈ s.coh.sent ∧ ∀ (l : Nat), l = 2 * (a / 256) ∨ l = 2 * (a / 256) + 1 → ∃ (h :
    BitVec 4), dirFind (dirGet s (stackOf s a)) l = some h ∧ h.getLsbD d = true) ∧
  (∃ (s : State) (d : Nat) (a : Nat), Up s ∧ d < 4 ∧ ¬a / 128 ∈ cacheGet s d ∧ ¬(d, a / 256) ∈ s.coh.sent ∧ heldOf s (stackOf s a) = []) ∧
  (∃ (s : State) (d : Nat) (a : Nat), Up s ∧ d < 4 ∧ (d, a / 128) ∈ s.coh.invs ∧ ¬(d, a / 256) ∈ s.coh.sent) ∧
  (∃ (s : State) (d : Nat) (a : Nat), Up s ∧ d < 4 ∧ (a / 128, d) ∈ acksOf s (stackOf s a) ∧ ¬(d, a / 128) ∈ s.coh.invs ∧ heldOf s (stackOf s a) =
    []) ∧
  (∃ (s : State) (d : Nat) (a : Nat), Up s ∧ d < 4 ∧ cacheable s d a = true ∧ stackInvOf s (stackOf s a) = 0) ∧
  (∃ (s : State) (d : Nat) (a : Nat), Up s ∧ d < 4 ∧ Idle s ∧ stackInvOf s (stackOf s a) = BitVec.ofNat 4 (2 ^ d) ∧ heldOf s (stackOf s a) = []) :=
  ⟨⟨up, 3, 300, by (repeat' apply And.intro) <;> first | decide +kernel | exact full_none _ _ (by decide +kernel)⟩,
   ⟨{ up with coh := { up.coh with sent := [(3, 1)], dir := [(0, [(2, 8), (3, 8)])] } }, 3, 300, by (repeat' apply And.intro) <;> first | decide +kernel | rfl | (intro l h; rcases h with rfl | rfl <;> exact ⟨8, by decide +kernel⟩)⟩,
   ⟨up, 3, 300, by decide +kernel⟩,
   ⟨{ up with coh := { up.coh with invs := [(3, 2)], lines := [(3, [2,3])], acks := [(0, [(2, 3)])] } }, 3, 300, by decide +kernel⟩,
   ⟨{ up with coh := { up.coh with lines := [(3, [2,3])], acks := [(0, [(2, 3)])], dir := [(0, [(2, 12), (3, 8)])] } }, 3, 300, by decide +kernel⟩,
   ⟨up, 3, 300, by decide +kernel⟩,
   ⟨{ up with coh := { up.coh with lines := [(3, [2,3,9])], stackInv := [(0, 8)], dir := [(0, [(2, 12), (3, 8)])] } }, 3, 300, by decide +kernel⟩⟩
theorem wit_QueuesAndDoorbells :
  (∃ (s : State) (q : Nat) (hv : HostView), FwRuns s ∧ q < 1024 ∧ s.boot.stage = 13 ∧ ((quGet s q).st = QSt.disabled ∨ (quGet s q).st = QSt.error)
    ∧ s.hif.up = true ∧ hv.fail = HostFail.none ∧ qtabOk (hostBytes hv (BitVec.toNat s.hif.qtBase + 64 * q) 64) = true) ∧
  (∃ (s : State) (q : Nat) (hv : HostView), FwRuns s ∧ q < 1024 ∧ (s.boot.stage ≠ 13 ∨ (quGet s q).st = QSt.active ∨ (quGet s q).st = QSt.stopping
    ∨ hv.fail = HostFail.none ∧ qtabOk (hostBytes hv (BitVec.toNat s.hif.qtBase + 64 * q) 64) = false)) ∧
  (∃ (s : State) (q : Nat), FwRuns s ∧ q < 1024 ∧ Idle s ∧ (quGet s q).st = QSt.active ∧ ∀ (d : Started), d ∈ s.hif.started → d.q ≠ some q) ∧
  (∃ (s : State) (q : Nat), FwRuns s ∧ q < 1024 ∧ Idle s ∧ (quGet s q).st = QSt.active ∧ ∃ (d : Started), d ∈ s.hif.started ∧ d.q = some q) ∧
  (∃ (s : State) (hv : HostView), Idle s ∧ hv.fail = HostFail.none ∧ s.hif.up = true ∧ s.hif.en = true) ∧
  (∃ (s : State) (g : Nat) (hv : HostView) (c : W32), Idle s ∧ hv.fail = HostFail.none ∧ s.hif.up = true ∧ 0 < s.hif.sumOut ∧ g < 32 ∧ c =
    BitVec.ofNat 32 (hostNat hv (BitVec.toNat s.hif.sumBase + 4 * g) 4)) ∧
  (∃ (s : State) (g : Nat) (q : Nat) (hv : HostView) (c : W32), Idle s ∧ hv.fail = HostFail.none ∧ s.hif.up = true ∧ g ∈ s.hif.groupOut ∧ q / 32 =
    g ∧ c = BitVec.ofNat 32 (hostNat hv (BitVec.toNat s.hif.dbBase + 4 * q) 4) ∧ (quGet s q).st = QSt.active ∧ BitVec.toNat (c - (quGet s q).ci) ≤ 2
    ^ (quGet s q).tab.log2) ∧
  (∃ (s : State) (g : Nat) (q : Nat) (hv : HostView) (c : W32), Idle s ∧ hv.fail = HostFail.none ∧ s.hif.up = true ∧ g ∈ s.hif.groupOut ∧ q / 32 =
    g ∧ c = BitVec.ofNat 32 (hostNat hv (BitVec.toNat s.hif.dbBase + 4 * q) 4) ∧ (quGet s q).st = QSt.active ∧ c ≠ (quGet s q).pi ∧ 2 ^ (quGet s
    q).tab.log2 < BitVec.toNat (c - (quGet s q).ci)) :=
  ⟨⟨lnk, 0, view 0 tabBytes .none, by decide +kernel⟩,
   ⟨lnk, 0, view 0 (desc [(0,1)]) .none, by decide +kernel⟩,
   ⟨withQ act id, 0, by decide +kernel⟩,
   ⟨withQ act (fun h => { h with started := [sta (some 0) (desc []) .remote] }), 0, by decide +kernel⟩,
   ⟨withQ { act with st := .error } id, view 0 tabBytes .none, by decide +kernel⟩,
   ⟨withQ act (fun h => { h with sumOut := 1 }), 0, view 0 [8,0,0,0] .none, 8#32, by decide +kernel⟩,
   ⟨withQ act (fun h => { h with groupOut := [0] }), 0, 0, view 0 [8,0,0,0] .none, 8#32, by decide +kernel⟩,
   ⟨withQ act (fun h => { h with groupOut := [0] }), 0, 0, view 0 [99,0,0,0] .none, 99#32, by decide +kernel⟩⟩
theorem wit_DescriptorsWait :
  (∃ (s : State) (q : Nat) (hv : HostView), Idle s ∧ (quGet s q).st = QSt.active ∧ (quGet s q).pi = (quGet s q).fetched + 1 ∧ (quGet s q).ci =
    (quGet s q).fetched ∧ (quGet s q).got = [] ∧ (quGet s q).tab.weight ≠ 0 ∧ (∀ (e : Nat × Queue), e ∈ s.hif.q → e.snd.fetchLen ≠ 0 → e.fst = q) ∧
    s.hif.up = true ∧ (quGet s q).tab.hbm = false ∧ hv.fail = HostFail.none ∧ dKnown (dOp (hostBytes hv (BitVec.toNat (quGet s q).tab.ring + 64 *
    (BitVec.toNat (quGet s q).fetched % 2 ^ (quGet s q).tab.log2)) 64)) = true) ∧
  (∃ (s : State) (q : Nat) (hv : HostView), Idle s ∧ (quGet s q).st = QSt.active ∧ (quGet s q).pi = (quGet s q).fetched + 1 ∧ (quGet s q).ci =
    (quGet s q).fetched ∧ (quGet s q).got = [] ∧ (quGet s q).tab.weight ≠ 0 ∧ (∀ (e : Nat × Queue), e ∈ s.hif.q → e.snd.fetchLen ≠ 0 → e.fst = q) ∧
    s.hif.up = true ∧ (quGet s q).tab.hbm = false ∧ hv.fail ≠ HostFail.none) ∧
  (∃ (s : State) (q : Nat), Idle s ∧ (quGet s q).st = QSt.active ∧ (quGet s q).pi = (quGet s q).fetched + 1 ∧ (quGet s q).ci = (quGet s q).fetched
    ∧ (quGet s q).got = [] ∧ (quGet s q).tab.weight ≠ 0 ∧ (∀ (e : Nat × Queue), e ∈ s.hif.q → e.snd.fetchLen ≠ 0 → e.fst = q) ∧ s.hif.up = true ∧
    (quGet s q).tab.hbm = false) ∧
  (∃ (s : State) (q : Nat) (d : List Byte), Idle s ∧ dNat d 8 6 ≠ 0 ∧ DescAt s q 0 d ∧ beatReached s d = true ∧ Passes s q (nopCheck s (quGet s
    q).tab d)) ∧
  (∃ (s : State) (q : Nat) (d : List Byte), Idle s ∧ dNat d 8 6 ≠ 0 ∧ (quGet s q).got = [d] ∧ beatReached s d = false) ∧
  (∃ (s : State) (k : Nat) (q : Nat) (n : Nat) (dst : Nat) (x : Started) (hv : HostView), Idle s ∧ stGet s k = some x ∧ x.wait = DWait.hostRead ∧
    x.q = some q ∧ n = dLen x.desc ∧ dst = cpDst x.desc ∧ dOp x.desc = 1 ∧ hv.fail = HostFail.none ∧ cpDstHost x.desc = false ∧ cpToke x.desc =
    false ∧ dst < 2 ^ 40 ∧ n ≠ 0 ∧ hbmOk s dst n = true ∧ Sound s) ∧
  (∃ (s : State) (k : Nat) (q : Nat) (n : Nat) (dst : Nat) (x : Started), Idle s ∧ stGet s k = some x ∧ x.wait = DWait.hostRead ∧ x.q = some q ∧ n
    = dLen x.desc ∧ dst = cpDst x.desc) :=
  ⟨⟨withQ act id, 0, view 0x1000 [] .none, by decide +kernel⟩,
   ⟨withQ act id, 0, view 0x1180 [0,1] .ur, by decide +kernel⟩,
   ⟨withQ act id, 0, by decide +kernel⟩,
   ⟨{ que (desc [(8, 5)]) with beat := { up.beat with now := 5 }}, 0, desc [(8, 5)], by decide +kernel⟩,
   ⟨que (desc [(8, 5)]), 0, desc [(8, 5)], by decide +kernel⟩,
   ⟨{ que (desc []) with hif := { (que (desc [])).hif with started := [sta (some 0) dHost .hostRead] } }, 3, 0, 16, 0x200, sta (some 0) dHost
    .hostRead, view 0x5000 (List.replicate 16 7) .none, by decide +kernel⟩,
   ⟨{ que (desc []) with hif := { (que (desc [])).hif with started := [sta (some 0) dHost .hostRead] } }, 3, 0, 16, 0x200, sta (some 0) dHost
    .hostRead, by decide +kernel⟩⟩
theorem wit_RingsAndVectors :
  (∃ (s : State) (n : Nat) (v : W32) (hv : HostView), n < 256 ∧ hv.fail = HostFail.none ∧ FwRuns s ∧ 4 ≤ fld v 1 5 ∧ fld v 1 5 ≤ 16 ∧ (cqGet s
    n).en = false ∧ BitVec.getLsbD v 0 = true) ∧
  (∃ (s : State) (n : Nat) (v : W32) (hv : HostView), n < 256 ∧ hv.fail = HostFail.none ∧ FwRuns s ∧ (fld v 1 5 < 4 ∨ 16 < fld v 1 5)) ∧
  (∃ (s : State) (n : Nat) (v : W32) (hv : HostView), n < 256 ∧ hv.fail = HostFail.none ∧ FwRuns s ∧ 6 ≤ fld v 1 5 ∧ fld v 1 5 ≤ 16 ∧ s.fr.en =
    false ∧ BitVec.getLsbD v 0 = true) ∧
  (∃ (s : State) (n : Nat) (hv : HostView), n < 256 ∧ hv.fail = HostFail.none ∧ Idle s ∧ (cqGet s n).en = true ∧ s.hif.up = true ∧ roomWanted s n =
    true) ∧
  (∃ (s : State) (n : Nat) (hv : HostView), n < 256 ∧ hv.fail = HostFail.none ∧ Up s ∧ s.fr.en = true ∧ s.hif.up = true ∧ BitVec.toNat (s.fr.j -
    s.fr.head) = 2 ^ s.fr.log2) ∧
  (∃ (s : State) (n : Nat) (hv : HostView), n < 256 ∧ hv.fail = HostFail.none ∧ Up s ∧ (cqGet s n).en = true ∧ (cqGet s n).time ≠ 0 ∧ (cqGet s
    n).unsig ≠ 0 ∧ s.hif.up = true ∧ (tblGet (fun (x : Nat) => Vec.init) s.msix (BitVec.toNat (cqGet s n).vec)).mask = false) ∧
  (∃ (s : State) (n : Nat) (hv : HostView), n < 256 ∧ hv.fail = HostFail.none ∧ Up s ∧ s.fr.due = true ∧ s.hif.up = true ∧ (tblGet (fun (x : Nat)
    => Vec.init) s.msix (BitVec.toNat s.hif.faultVec)).mask = false) ∧
  (∃ (s : State) (k : Nat), FwRuns s ∧ s.hif.up = true ∧ k < 256) ∧
  (∃ (s : State) (k : Nat) (v : W64), FwRuns s ∧ s.hif.up = true ∧ k < 256 ∧ (tblGet (fun (x : Nat) => Vec.init) s.msix k).pending = true ∧
    BitVec.getLsbD v 0 = false) :=
  ⟨⟨up, 0, 0x11#32, view 0 [9,0,0,0] .none, by decide +kernel⟩,
   ⟨up, 0, 0x00#32, view 0 [9,0,0,0] .none, by decide +kernel⟩,
   ⟨up, 0, 0x11#32, view 0 [9,0,0,0] .none, by decide +kernel⟩,
   ⟨rq (fun c => { c with head := 0, i := 16 }), 0, view 0 [9,0,0,0] .none, by decide +kernel⟩,
   ⟨{ rq id with fr := { up.fr with en := true, log2 := 6, j := 64, due := true }, msix := [(0, ⟨1,2,false,false⟩)] }, 0, view 0 [9,0,0,0] .none, by decide +kernel⟩,
   ⟨{ rq (fun c => { c with time := 3, unsig := 2}) with msix := [(0, ⟨1,2,false,false⟩)] }, 0, view 0 [9,0,0,0] .none, by decide +kernel⟩,
   ⟨{ rq id with fr := { up.fr with en := true, log2 := 6, j := 64, due := true }, msix := [(0, ⟨1,2,false,false⟩)] }, 0, view 0 [9,0,0,0] .none, by decide +kernel⟩,
   ⟨rq id, 0, by decide +kernel⟩,
   ⟨{ rq id with msix := [(0, ⟨1,2,true,true⟩)], ev := [(0, 0xFF)] }, 0, 0#64, by decide +kernel⟩⟩
theorem wit_HostLink :
  (∃ (s : State) (gen : Nat) (width : Nat), Idle s ∧ 2 ≤ s.boot.stage ∧ s.boot.stage ≤ 13 ∧ 1 ≤ gen ∧ gen ≤ 6 ∧ width ∈ [1, 2, 4, 8, 16]) ∧
  (∃ (s : State), Idle s ∧ s.hif.up = true) :=
  ⟨⟨up, 6, 16, by decide +kernel⟩,
   ⟨{ que (desc []) with hif := { (que (desc [])).hif with started := [sta (some 0) (desc [(0, 1), (4, 16), (32, 0x5000), (40, 0x200), (48, 1)]) .hostRead] } }, by decide +kernel⟩⟩
theorem wit_DescriptorResults :
  (∃ (s : State) (q : Nat) (d : List Byte), DescAt s q 0 d ∧ Passes s q (nopCheck s (quGet s q).tab d)) ∧
  (∃ (s : State) (q : Nat) (d : List Byte), DescAt s q 1 d ∧ NoneDue s ∧ Passes s q (copyCheck s (quGet s q).tab d) ∧ dLen d ≠ 0 ∧ cpSrcHost d =
    false ∧ cpDstHost d = false ∧ cpToke d = false ∧ cpSrc d < 2 ^ 40 ∧ cpDst d < 2 ^ 40 ∧ Sound s) ∧
  (∃ (s : State) (q : Nat) (d : List Byte), DescAt s q 16 d ∧ Passes s q (loadCheck s (quGet s q).tab d) ∧ dLen d ≠ 0 ∧ dByte d 40 = 0 ∧ dNat d 32
    8 < 2 ^ 40 ∧ loadWaits s d = false ∧ Sound s) ∧
  (∃ (s : State) (q : Nat) (d : List Byte), DescAt s q 17 d ∧ Passes s q (resetCheck s (quGet s q).tab d) ∧ resetWaits s d = false) ∧
  (∃ (s : State) (q : Nat) (d : List Byte), DescAt s q 19 d ∧ Passes s q (hintCheck s (quGet s q).tab d) ∧ BitVec.toNat s.beat.now < dNat d 40 8) :=
  ⟨⟨que (desc [(2, 5)]), 0, desc [(2, 5)], by decide +kernel⟩,
   ⟨{ que (desc [(0, 1), (4, 16), (32, 0x100), (40, 0x110)]) with mem := ⟨[(0x101, 4)], []⟩ }, 0, desc [(0, 1), (4, 16), (32, 0x100), (40, 0x110)], by decide +kernel⟩,
   ⟨{ que (desc [(0, 0x10), (4, 32), (32, 0x100), (41, 63), (42, 16382)]) with mem := ⟨[(0x101, 4)], []⟩ }, 0, desc [(0, 0x10), (4, 32), (32,
    0x100), (41, 63), (42, 16382)], by decide +kernel⟩,
   ⟨engPut (que (desc [(0, 0x11), (32, 3)])) 1 { eng0 0 with st := .faulted, exc := some ⟨1,0,0,0,0,0,0⟩ }, 0, desc [(0, 0x11), (32, 3)], by decide +kernel⟩,
   ⟨que (desc [(0, 0x13), (32, 5), (40, 100), (48, 8)]), 0, desc [(0, 0x13), (32, 5), (40, 100), (48, 8)], by decide +kernel⟩⟩
theorem wit_EngineStart :
  ∃ (s : State) (q : Nat) (d : List Byte), DescAt s q 18 d ∧ Passes s q (startCheck s (quGet s q).tab d) ∧ startWaits s d = false ∧ dByte d 42 = 0 :=
  ⟨warm (que (desc [(0, 0x12), (32, 1), (40, 0x3FFF)])), 0, desc [(0, 0x12), (32, 1), (40, 0x3FFF)], by decide +kernel⟩
theorem wit_DescriptorRefused :
  (∃ (s : State) (q : Nat) (d : List Byte) (c : Instr) (op : Nat) (chk : State → QTab → List Byte → DCheck), Idle s ∧ ((op, c) = (0, Instr.nopDesc
    q) ∧ chk = nopCheck ∨ (op, c) = (1, Instr.copy q) ∧ chk = copyCheck ∨ (op, c) = (16, Instr.engineLoad q) ∧ chk = loadCheck ∨ (op, c) = (18,
    Instr.engineStart q) ∧ chk = startCheck ∨ (op, c) = (48, Instr.seqBind q) ∧ chk = bindCheck ∨ (op, c) = (53, Instr.jrnlFlush q) ∧ chk =
    flushCheck ∨ (op, c) = (65, Instr.cktTeardown q) ∧ chk = teardownCheck ∨ (op, c) = (80, Instr.rmtWrite q) ∧ chk = rmtCheck false ∨ (op, c) =
    (96, Instr.calWrite q) ∧ chk = calCheck) ∧ DescAt s q op d ∧ (chk s (quGet s q).tab d).form = false) ∧
  (∃ (s : State) (q : Nat) (d : List Byte) (c : Instr) (op : Nat) (chk : State → QTab → List Byte → DCheck), Idle s ∧ ((op, c) = (0, Instr.nopDesc
    q) ∧ chk = nopCheck ∨ (op, c) = (1, Instr.copy q) ∧ chk = copyCheck ∨ (op, c) = (16, Instr.engineLoad q) ∧ chk = loadCheck ∨ (op, c) = (18,
    Instr.engineStart q) ∧ chk = startCheck ∨ (op, c) = (48, Instr.seqBind q) ∧ chk = bindCheck ∨ (op, c) = (53, Instr.jrnlFlush q) ∧ chk =
    flushCheck ∨ (op, c) = (65, Instr.cktTeardown q) ∧ chk = teardownCheck ∨ (op, c) = (80, Instr.rmtWrite q) ∧ chk = rmtCheck false ∨ (op, c) =
    (96, Instr.calWrite q) ∧ chk = calCheck) ∧ DescAt s q op d ∧ (chk s (quGet s q).tab d).form = true ∧ (chk s (quGet s q).tab d).codes = [] ∧ (∀
    (r : DRange), r ∈ (chk s (quGet s q).tab d).ranges → (rangeVerdict s (quGet s q).tab r).fst = 0) ∧ cutCodes s (quGet s q) = [65]) :=
  ⟨⟨que (desc [(0, 1), (50, 1)]), 0, desc [(0, 1), (50, 1)], Instr.copy 0, 1, copyCheck, by decide +kernel, .inr (.inl ⟨rfl, rfl⟩), by decide +kernel, by decide +kernel⟩,
   ⟨{ que (desc [(0, 1), (4, 16), (32, 0x100), (40, 0x110)]) with lease := { up.lease with st := 2 } }, 0, desc [(0, 1), (4, 16), (32, 0x100), (40,
    0x110)], Instr.copy 0, 1, copyCheck, by decide +kernel, .inr (.inl ⟨rfl, rfl⟩), by decide +kernel⟩⟩
theorem wit_SequenceDescriptors :
  (∃ (s : State) (q : Nat) (i : Nat) (n : Nat) (a : Nat) (d : List Byte), Idle s ∧ i = sqSlot d ∧ Sound s ∧ DescAt s q 48 d ∧ Passes s q (bindCheck
    s (quGet s q).tab d) ∧ n = dNat d 32 2 ∧ a = entryAt s n ∧ hbmOk s a 128 = true) ∧
  (∃ (s : State) (q : Nat) (i : Nat) (a : Nat) (d : List Byte) (x : Slot), Idle s ∧ i = sqSlot d ∧ Sound s ∧ DescAt s q 49 d ∧ Passes s q
    (unbindCheck s (quGet s q).tab d) ∧ slotGet s i = some x ∧ x.held = none ∧ dByte d 37 = 0 ∧ a = entryAt s x.entry ∧ a + 128 ≤ 2 ^ 40 ∧ hbmOk s a
    128 = true ∧ x.bytes.length = 128) ∧
  (∃ (s : State) (q : Nat) (i : Nat) (a : Nat) (d : List Byte) (x : Slot), Idle s ∧ i = sqSlot d ∧ Sound s ∧ DescAt s q 50 d ∧ Passes s q
    (patchCheck s (quGet s q).tab d) ∧ slotGet s i = some x ∧ x.held = none ∧ dByte d 37 = 2 ∧ a = entryAt s x.entry ∧ a + 128 ≤ 2 ^ 40 ∧ hbmOk s a
    128 = true ∧ x.bytes.length = 128) ∧
  (∃ (s : State) (q : Nat) (i : Nat) (d : List Byte), Idle s ∧ i = sqSlot d ∧ Sound s ∧ DescAt s q 52 d ∧ Passes s q (poolCheck s (quGet s q).tab
    d) ∧ kvOp d = 2 ∧ s.seqs.low = 0) ∧
  (∃ (s : State) (q : Nat) (i : Nat) (n : Nat) (a : Nat) (d : List Byte), Idle s ∧ i = sqSlot d ∧ Sound s ∧ DescAt s q 52 d ∧ Passes s q (poolCheck
    s (quGet s q).tab d) ∧ kvOp d = 0 ∧ dCount d = 1 ∧ n = BitVec.toNat s.seqs.top ∧ a = stackAt s n ∧ a + 4 ≤ 2 ^ 40 ∧ kvList d + 4 ≤ 2 ^ 40 ∧
    hbmOk s (kvList d) 4 = true ∧ hbmOk s a 4 = true) :=
  ⟨⟨withMem (withSeq (que (desc [(0, 0x30), (32, 4), (36, 2)])) sq0) 0x10200 entB, 0, 2, 4, 0x10200, desc [(0, 0x30), (32, 4), (36, 2)], by decide +kernel⟩,
   ⟨slotted (desc [(0, 0x31), (36, 2)]) none, 0, 2, 0x10200, desc [(0, 0x31), (36, 2)], (⟨4, entB, none⟩ : Slot), by decide +kernel⟩,
   ⟨slotted (desc [(0, 0x32), (36, 2), (37, 2)]) none, 0, 2, 0x10200, desc [(0, 0x32), (36, 2), (37, 2)], (⟨4, entB, none⟩ : Slot), by decide +kernel⟩,
   ⟨withSeq (que (desc [(0, 0x34), (32, 2)])) (fun x => { sq0 x with top := 7 }), 0, 0, desc [(0, 0x34), (32, 2)], by decide +kernel⟩,
   ⟨withMem (withSeq (que (desc [(0, 0x34), (16, 1), (32, 0), (40, 0x4000)])) (fun x => { sq0 x with top := 7 })) 0x4000 [9, 0, 0, 0], 0, 0, 7,
    0x20001C, desc [(0, 0x34), (16, 1), (32, 0), (40, 0x4000)], by decide +kernel⟩⟩
theorem wit_DecodingStep :
  (∃ (s : State) (q : Nat) (d : List Byte), Up s ∧ NoneDue s ∧ s.rmt.ops = [] ∧ s.mir.commits = [] ∧ Sound s ∧ (∀ (y : Started), y ∈ s.hif.started
    → y.wait ≠ DWait.journal ∧ y.wait ≠ DWait.writes) ∧ (DescAt s q 51 d ∧ s.seqs.steps = [] ∧ Passes s q (decodeCheck s (quGet s q).tab d) ∧
    decodeWaits s d = false) ∧ dsMask d = 0 ∧ ∀ (z : Nat × Option Slot), z ∈ s.seqs.slots → (z.snd.bind fun (y : Slot) => y.held) ≠ some
    s.hif.nextId) ∧
  (∃ (s : State) (q : Nat) (i : Nat) (d : List Byte) (x : Slot), Up s ∧ NoneDue s ∧ s.rmt.ops = [] ∧ s.mir.commits = [] ∧ Sound s ∧ (∀ (y :
    Started), y ∈ s.hif.started → y.wait ≠ DWait.journal ∧ y.wait ≠ DWait.writes) ∧ (DescAt s q 51 d ∧ s.seqs.steps = [] ∧ Passes s q (decodeCheck s
    (quGet s q).tab d) ∧ decodeWaits s d = false) ∧ (dsMask d = 2 ^ i ∧ i < 128 ∧ slotGet s i = some x ∧ eState x.bytes = 1 ∧ x.held = none ∧ ePos
    x.bytes / 16 < eAlloc x.bytes ∧ eRing x.bytes ≠ dCq d) ∧ ringFits s (eRing x.bytes) 1 = false) ∧
  (∃ (s : State) (q : Nat) (i : Nat) (d : List Byte) (x : Slot), Up s ∧ NoneDue s ∧ s.rmt.ops = [] ∧ s.mir.commits = [] ∧ Sound s ∧ (∀ (y :
    Started), y ∈ s.hif.started → y.wait ≠ DWait.journal ∧ y.wait ≠ DWait.writes) ∧ (DescAt s q 51 d ∧ s.seqs.steps = [] ∧ Passes s q (decodeCheck s
    (quGet s q).tab d) ∧ decodeWaits s d = false) ∧ (dsMask d = 2 ^ i ∧ i < 128 ∧ slotGet s i = some x ∧ eState x.bytes = 1 ∧ x.held = none ∧ ePos
    x.bytes / 16 < eAlloc x.bytes ∧ eRing x.bytes ≠ dCq d) ∧ ringFits s (eRing x.bytes) 1 = true ∧ hbmOk s (ePt x.bytes + 4 * (ePos x.bytes / 16)) 4
    = true) ∧
  (∃ (s : State) (q : Nat) (i : Nat) (k : Nat) (x : Slot) (z : Started), Up s ∧ NoneDue s ∧ s.rmt.ops = [] ∧ s.mir.commits = [] ∧ Sound s ∧ (∀ (y :
    Started), y ∈ s.hif.started → y.wait ≠ DWait.journal ∧ y.wait ≠ DWait.writes) ∧ stGet s k = some z ∧ z.q = some q ∧ z.engLeft = 0 ∧ z.codes = []
    ∧ z.wait = DWait.decode ∧ z.engDone = [] ∧ s.seqs.steps =
    [{ id := k, front := none, rows := [i], grown := [], skipped := 0, begun := true, jrnl := false, codes := [], told := [] }] ∧ i < 128 ∧
    s.rt.repro = false ∧ slotGet s i = some x ∧ x.held = some k ∧ x.bytes.length = 128 ∧ hbmOk s (resultAt z.desc 0) 16 = true ∧ hbmOk s (entryAt s
    x.entry) 128 = true ∧ entryAt s x.entry + 128 ≤ 2 ^ 40 ∧ resultAt z.desc 0 + 16 ≤ 2 ^ 40 ∧ leAt (memRead s.mem (resultAt z.desc 0) 16) 4 1 % 2 =
    0) :=
  ⟨⟨warm (withSeq (que (desc [(0, 0x33), (48, 0x4000)])) sq0), 0, desc [(0, 0x33), (48, 0x4000)], by decide +kernel⟩,
   ⟨ring3 (warm (slotted dDec none)), 0, 2, dDec, (⟨4, entB, none⟩ : Slot), by decide +kernel⟩,
   ⟨(let s := ring3 (warm (slotted dDec none));
    { s with hif := { s.hif with cq := [(0, cqGet s 0), (3, { Cq.init with en := true, log2 := 4 })] } }), 0, 2, dDec, (⟨4, entB, none⟩ : Slot), by decide +kernel⟩,
   ⟨withMem stepping 0x7040 [77,0,0,0, 0,0,0,0, 64,0,0,0, 0,0,0,0], 0, 2, 3, (⟨4, entB, some 3⟩ : Slot), sta (some 0) dDec .decode, by decide +kernel⟩⟩
theorem wit_JournalFlush :
  (∃ (s : State) (q : Nat) (a : Nat) (n : Nat) (d : List Byte), a = jfAddr d ∧ n = dLen d ∧ Idle s ∧ DescAt s q 53 d ∧ Passes s q (flushCheck s
    (quGet s q).tab d) ∧ n = 0) ∧
  (∃ (s : State) (q : Nat) (a : Nat) (n : Nat) (d : List Byte), a = jfAddr d ∧ n = dLen d ∧ Idle s ∧ DescAt s q 53 d ∧ Passes s q (flushCheck s
    (quGet s q).tab d) ∧ s.rt.slice ≠ 0 ∧ n ≠ 0 ∧ memNat s a 4 = n ∧ hbmOk s a n = true ∧ Sound s) ∧
  (∃ (s : State) (q : Nat) (a : Nat) (n : Nat) (d : List Byte), a = jfAddr d ∧ n = dLen d ∧ Idle s ∧ DescAt s q 53 d ∧ (flushCheck s (quGet s
    q).tab d).form = true ∧ (∀ (r : DRange), r ∈ (flushCheck s (quGet s q).tab d).ranges → (rangeVerdict s (quGet s q).tab r).fst = 0) ∧ cutCodes s
    (quGet s q) = [] ∧ s.rt.slice = 0 ∧ n ≠ 0) ∧
  (∃ (s : State) (a : Nat) (n : Nat) (d : List Byte) (j : Nat) (x : Started), a = jfAddr d ∧ n = dLen d ∧ Up s ∧ s.hif.started = [x] ∧ x.id = j ∧
    x.wait = DWait.journal ∧ x.codes = [] ∧ s.rmt.ops = [] ∧ s.mir.commits = [] ∧ s.seqs.steps = [] ∧ ∃ (r : JrnlOut), r ∈ s.shf.jout ∧ r.owner = j) :=
  ⟨⟨que (desc [(0, 0x35)]), 0, 0, 0, desc [(0, 0x35)], by decide +kernel⟩,
   ⟨sliced (withMem (que dFl) 0x4000 recB), 0, 0x4000, 64, dFl, by decide +kernel⟩,
   ⟨withMem (que dFl) 0x4000 recB, 0, 0x4000, 64, dFl, by decide +kernel⟩,
   ⟨jdd, 0x4000, 64, dFl, 3, sta (some 0) dFl .journal, by decide +kernel⟩⟩
theorem wit_SequenceRegisters :
  (∃ (s : State) (v : W64), FwRuns s ∧ boundSlots s = 0 ∧ s.seqs.steps = [] ∧ fld v 0 12 = 0 ∧ areasOk s
    { s.seqs with base := BitVec.ofNat 64 (BitVec.toNat v % 2 ^ 48) } = true) ∧
  (∃ (s : State), FwRuns s ∧ (boundSlots s ≠ 0 ∨ s.seqs.steps ≠ [])) ∧
  (∃ (s : State) (w : W32), FwRuns s ∧ BitVec.toNat w ≤ BitVec.toNat s.seqs.top) ∧
  (∃ (s : State) (w : W32), FwRuns s ∧ BitVec.toNat s.seqs.low ≤ BitVec.toNat s.seqs.top ∧ BitVec.toNat s.seqs.top < BitVec.toNat w) :=
  ⟨⟨withSeq up sq0, 0x20000#64, by decide +kernel⟩,
   ⟨withSeq up (fun x => { sq0 x with top := 5, low := 2, slots := [(2, some ⟨4, entB, none⟩)]}), by decide +kernel⟩,
   ⟨withSeq up sq0, 0#32, by decide +kernel⟩,
   ⟨withSeq up sq0, 5#32, by decide +kernel⟩⟩
theorem wit_RemoteDescriptors :
  (∃ (s : State) (q : Nat) (n : Nat) (dst : Nat) (d : List Byte), Idle s ∧ n = dLen d ∧ s.rt.slice ≠ 0 ∧ DescAt s q 80 d ∧ Passes s q (rmtCheck
    false s (quGet s q).tab d) ∧ n ≠ 0 ∧ if dNat d 46 2 % 2 = 0 then dst = dNat d 38 2 else dNat d 38 2 < BitVec.toNat s.rt.rankCount ∧ ∃ (v : W32),
    tblGet (fun (x : Nat) => 0) s.rt.ranks (dNat d 38 2) = BitVec.toNat v + 1 ∧ BitVec.getLsbD v 16 = true ∧ fld v 17 15 = 0 ∧ fld v 12 4 < 12 ∧ dst
    = fld v 0 16) ∧
  (∃ (s : State) (q : Nat) (n : Nat) (dst : Nat) (d : List Byte), Idle s ∧ n = dLen d ∧ s.rt.slice ≠ 0 ∧ DescAt s q 81 d ∧ Passes s q (rmtCheck
    true s (quGet s q).tab d) ∧ n ≠ 0 ∧ if dNat d 46 2 % 2 = 0 then dst = dNat d 38 2 else dNat d 38 2 < BitVec.toNat s.rt.rankCount ∧ ∃ (v : W32),
    tblGet (fun (x : Nat) => 0) s.rt.ranks (dNat d 38 2) = BitVec.toNat v + 1 ∧ BitVec.getLsbD v 16 = true ∧ fld v 17 15 = 0 ∧ fld v 12 4 < 12 ∧ dst
    = fld v 0 16) ∧
  (∃ (s : State) (q : Nat) (n : Nat) (dst : Nat) (d : List Byte), Idle s ∧ n = dLen d ∧ s.rt.slice ≠ 0 ∧ DescAt s q 82 d ∧ Passes s q (atomCheck s
    (quGet s q).tab d) ∧ (rmtAop d = 3 → s.rt.repro = false) ∧ if dNat d 46 2 % 2 = 0 then dst = dNat d 38 2 else dNat d 38 2 < BitVec.toNat
    s.rt.rankCount ∧ ∃ (v : W32), tblGet (fun (x : Nat) => 0) s.rt.ranks (dNat d 38 2) = BitVec.toNat v + 1 ∧ BitVec.getLsbD v 16 = true ∧ fld v 17
    15 = 0 ∧ fld v 12 4 < 12 ∧ dst = fld v 0 16) ∧
  (∃ (s : State) (q : Nat) (n : Nat) (d : List Byte), Idle s ∧ n = dLen d ∧ s.rt.slice ≠ 0 ∧ DescAt s q 66 d ∧ Passes s q (mcCheck s (quGet s
    q).tab d) ∧ n ≠ 0) ∧
  (∃ (s : State) (q : Nat) (n : Nat) (d : List Byte) (op : Nat) (c : Instr) (chk : DCheck), Idle s ∧ n = dLen d ∧ ((op, c) = (80, Instr.rmtWrite q)
    ∧ chk = rmtCheck false s (quGet s q).tab d ∨ (op, c) = (81, Instr.rmtRead q) ∧ chk = rmtCheck true s (quGet s q).tab d ∨ (op, c) = (66,
    Instr.mcWrite q) ∧ chk = mcCheck s (quGet s q).tab d) ∧ DescAt s q op d ∧ Passes s q chk ∧ n = 0) ∧
  (∃ (s : State) (q : Nat) (n : Nat) (d : List Byte) (op : Nat) (c : Instr) (chk : DCheck), Idle s ∧ n = dLen d ∧ ((op, c) = (80, Instr.rmtWrite q)
    ∧ chk = rmtCheck false s (quGet s q).tab d ∨ (op, c) = (81, Instr.rmtRead q) ∧ chk = rmtCheck true s (quGet s q).tab d ∨ (op, c) = (66,
    Instr.mcWrite q) ∧ chk = mcCheck s (quGet s q).tab d) ∧ DescAt s q op d ∧ Passes s q chk ∧ s.rt.slice = 0 ∧ n ≠ 0 ∧ c = Instr.rmtWrite q) :=
  ⟨⟨sliced (que (desc [(0, 0x50), (4, 64), (32, 0x100), (38, 9), (40, 0x2000)])), 0, 64, 9, desc [(0, 0x50), (4, 64), (32, 0x100), (38, 9), (40,
    0x2000)], by decide +kernel⟩,
   ⟨sliced (que (desc [(0, 0x51), (4, 64), (32, 0x100), (38, 9), (40, 0x2000)])), 0, 64, 9, desc [(0, 0x51), (4, 64), (32, 0x100), (38, 9), (40,
    0x2000)], by decide +kernel⟩,
   ⟨sliced (que (desc [(0, 0x52), (32, 0x100), (38, 9), (40, 0x2000), (48, 1)])), 0, 0, 9, desc [(0, 0x52), (2, 0), (32, 0x100), (38, 9), (40,
    0x2000), (48, 1)], by decide +kernel⟩,
   ⟨sliced (que (desc [(0, 0x42), (4, 64), (32, 9), (40, 0x2000), (48, 0x100)])), 0, 64, desc [(0, 0x42), (4, 64), (32, 9), (40, 0x2000), (48,
    0x100)], by decide +kernel⟩,
   ⟨sliced (que (desc [(0, 0x50), (4, 0), (32, 0x100), (38, 9), (40, 0x2000)])), 0, 0, desc [(0, 0x50), (4, 0), (32, 0x100), (38, 9), (40, 0x2000)],
    0x50, Instr.rmtWrite 0, rmtCheck false (sliced (que (desc [(0, 0x50), (4, 0), (32, 0x100), (38, 9), (40, 0x2000)]))) tabAll (desc [(0, 0x50),
    (4, 0), (32, 0x100), (38, 9), (40, 0x2000)]), by decide +kernel⟩,
   ⟨que (desc [(0, 0x50), (4, 64), (32, 0x100), (38, 9), (40, 0x2000)]), 0, 64, desc [(0, 0x50), (4, 64), (32, 0x100), (38, 9), (40, 0x2000)], 0x50,
    Instr.rmtWrite 0, rmtCheck false (que (desc [(0, 0x50), (4, 64), (32, 0x100), (38, 9), (40, 0x2000)])) tabAll (desc [(0, 0x50), (4, 64), (32,
    0x100), (38, 9), (40, 0x2000)]), by decide +kernel⟩⟩
theorem wit_CircuitControl :
  (∃ (s : State) (q : Nat) (n : Nat) (d : List Byte), Idle s ∧ n < 256 ∧ DescAt s q 64 d ∧ Passes s q (setupCheck s (quGet s q).tab d) ∧ (cktGet s
    n).st = 0 ∧ ∀ (m : Nat), m < n → (cktGet s m).st ≠ 0) ∧
  (∃ (s : State) (q : Nat) (n : Nat) (d : List Byte), Idle s ∧ n < 256 ∧ DescAt s q 65 d ∧ Passes s q (teardownCheck s (quGet s q).tab d) ∧ cktOf s
    (dNat d 32 2) = some n ∧ (∀ (x : Packet), x ∈ (vcGet s (cktGet s n).inp.toNat 7).arr → (cktGet s n).carries x = false) ∧ (∀ (x : Nat × Packet),
    x ∈ (vcGet s (cktGet s n).out.toNat 7).fwd ++ (vcGet s (cktGet s n).out.toNat 7).loc → (cktGet s n).carries x.snd = false) ∧ (∀ (x : Nat × Nat ×
    Packet), x ∈ (vcGet s (cktGet s n).out.toNat 7).curPkt → (cktGet s n).carries x.snd.snd = false) ∧ ∀ (x : Inj), x ∈ (portGet s (cktGet s
    n).out.toNat).inj ++ (portGet s (cktGet s n).out.toNat).stall → (cktGet s n).carries x.pkt = false) ∧
  (∃ (s : State) (n : Nat), Idle s ∧ n < 256 ∧ (cktGet s n).st = 1 ∧ BitVec.toNat (cktGet s n).act ≤ BitVec.toNat s.beat.now ∧ cutDue s = false ∧
    hintDue s = false ∧ switchDue s = false ∧ endUp s (cktGet s n).inp = true ∧ endUp s (cktGet s n).out = true) ∧
  (∃ (s : State) (n : Nat), Idle s ∧ n < 256 ∧ (cktGet s n).st = 1 ∧ BitVec.toNat (cktGet s n).act ≤ BitVec.toNat s.beat.now ∧ cutDue s = false ∧
    hintDue s = false ∧ switchDue s = false ∧ (endUp s (cktGet s n).inp = false ∨ endUp s (cktGet s n).out = false)) ∧
  (∃ (s : State) (n : Nat), Idle s ∧ n < 256 ∧ (BitVec.toNat s.beat.now < BitVec.toNat (cktGet s n).act ∨ cutDue s = true ∨ hintDue s = true ∨
    switchDue s = true)) ∧
  (∃ (s : State), Idle s ∧ s.beat.st = BeatSt.holdover ∧ 4096 ≤ BitVec.toNat s.beat.holdLen) ∧
  (∃ (s : State), Idle s ∧ s.beat.st = BeatSt.holdover ∧ BitVec.toNat s.beat.holdLen < 4096) ∧
  (∃ (s : State), Idle s ∧ s.beat.st = BeatSt.holdover ∧ 16384 ≤ BitVec.toNat s.beat.holdLen) ∧
  (∃ (s : State), Idle s ∧ s.beat.st = BeatSt.holdover ∧ BitVec.toNat s.beat.holdLen < 16384) :=
  ⟨⟨uPorts (ck 2 0 0 0 0 (que dSet)), 0, 0, dSet, by decide +kernel⟩,
   ⟨ck 2 2 0 0x7F 3 (que dTea), 0, 2, dTea, by decide +kernel⟩,
   ⟨uPorts (ck 2 1 10 5 3 up), 2, by decide +kernel⟩,
   ⟨ck 2 1 10 0x7F 3 up, 2, by decide +kernel⟩,
   ⟨ck 2 1 11 0x7F 3 up, 2, by decide +kernel⟩,
   ⟨hold 4096, by decide +kernel⟩,
   ⟨hold 4095, by decide +kernel⟩,
   ⟨hold 16384, by decide +kernel⟩,
   ⟨hold 4096, by decide +kernel⟩⟩
theorem wit_CalibrationWrites :
  (∃ (s : State) (q : Nat) (d : List Byte), Idle s ∧ DescAt s q 96 d ∧ Passes s q (calCheck s (quGet s q).tab d) ∧ dLen d = 0) ∧
  (∃ (s : State) (q : Nat) (d : List Byte), Idle s ∧ DescAt s q 96 d ∧ Passes s q (calCheck s (quGet s q).tab d) ∧ calWaits s d = false ∧ dLen d ≠
    0 ∧ cwHost d = true) ∧
  (∃ (s : State) (k : Nat) (x : Started) (hv : HostView), Idle s ∧ stGet s k = some x ∧ x.wait = DWait.hostRead ∧ dOp x.desc = 96 ∧ hv.fail =
    HostFail.none ∧ calImageOk (hostBytes hv (dNat x.desc 32 8) (dLen x.desc)) = false) ∧
  (∃ (s : State) (k : Nat) (bs : List Byte), Idle s ∧ s.flash.writing = some (k, bs) ∧ bs.length ≤ 61865984) :=
  ⟨⟨que (dCal 0 0), 0, dCal 0 0, by decide +kernel⟩,
   ⟨rgd (que (dCal 4096 1)), 0, dCal 4096 1, by decide +kernel⟩,
   ⟨{ up with hif := { up.hif with started := [sta (some 0) (dCal 4096 1) .hostRead] } }, 3, sta (some 0) (dCal 4096 1) .hostRead, view 0x5000
    [1,2,3] .none, by decide +kernel⟩,
   ⟨calW, 3, [1#8, 2#8, 3#8], by decide +kernel⟩⟩
theorem wit_BeatControl :
  (∃ (s : State), Up s) ∧
  (∃ (s : State) (v : W32), Up s ∧ fwUp s = true ∧ fld v 1 3 < 7 ∧ NothingArmed s ∧ BitVec.getLsbD v 12 = false ∧ s.beat.st = BeatSt.unsynced) ∧
  (∃ (s : State) (v : W32), Up s ∧ fwUp s = true ∧ fld v 1 3 < 7 ∧ NothingArmed s ∧ BitVec.getLsbD v 12 = false ∧ s.beat.st ≠ BeatSt.unsynced ∧
    s.beat.st ≠ BeatSt.master) ∧
  (∃ (s : State) (v : W32), Up s ∧ fwUp s = true ∧ fld v 1 3 < 7 ∧ NothingArmed s ∧ BitVec.getLsbD v 12 = false ∧ s.beat.st = BeatSt.master) ∧
  (∃ (s : State) (v : W32), Up s ∧ fwUp s = true ∧ fld v 1 3 < 7 ∧ NothingArmed s ∧ BitVec.getLsbD v 0 = true ∧ s.beat.st = BeatSt.master) ∧
  (∃ (s : State) (v : W32) (n : W64) (ph : Nat) (per : BitVec 3) (h : Nat), Up s ∧ fwUp s = true ∧ fld v 1 3 < 7 ∧ NothingArmed s ∧ BitVec.getLsbD
    v 0 = false ∧ BitVec.getLsbD v 5 = true ∧ s.beat.st = BeatSt.locked ∧ s.beat.upstream.toNat = fld v 6 6 ∧ upTime s (fld v 6 6) = some (n, ph,
    per) ∧ offered s (fld v 6 6) = some h) ∧
  (∃ (s : State), Up s ∧ s.beat.st = BeatSt.acquiring ∧ (BitVec.toInt s.beat.offset).natAbs ≤ 12) ∧
  (∃ (s : State), Up s ∧ s.beat.st = BeatSt.acquiring ∧ 12 < (BitVec.toInt s.beat.offset).natAbs ∧ 64 ≤ s.beat.acqLen) ∧
  (∃ (s : State), Up s ∧ (s.beat.st ≠ BeatSt.acquiring ∨ 12 < (BitVec.toInt s.beat.offset).natAbs ∧ s.beat.acqLen < 64)) ∧
  (∃ (s : State), Up s ∧ s.beat.st = BeatSt.locked ∧ offered s s.beat.upstream.toNat = none ∧ bestUpstream s = none) ∧
  (∃ (s : State) (q : Nat) (h : Nat), Up s ∧ s.beat.st = BeatSt.locked ∧ offered s s.beat.upstream.toNat = none ∧ bestUpstream s = some q ∧ offered
    s q = some h) ∧
  (∃ (s : State), Up s ∧ s.beat.st = BeatSt.locked ∧ 64 ≤ s.beat.unseen) ∧
  (∃ (s : State), Up s ∧ s.beat.st = BeatSt.locked ∧ s.beat.unseen < 64) ∧
  (∃ (s : State), Up s ∧ s.beat.st = BeatSt.master ∧ s.beat.ptpEn = true) :=
  ⟨⟨leased (bt (fun b => { b with st := .locked, upstream := 4, ports := [(4, pb0)] })), by decide +kernel⟩,
   ⟨bt id, 0x3#32, by decide +kernel⟩,
   ⟨leased (bt (fun b => { b with st := .locked, upstream := 4, ports := [(4, pb0)] })), 0x0120#32, by decide +kernel⟩,
   ⟨bt (fun b => { b with st := .master }), 0x3#32, by decide +kernel⟩,
   ⟨bt (fun b => { b with st := .master }), 0x3#32, by decide +kernel⟩,
   ⟨leased (bt (fun b => { b with st := .locked, upstream := 4, ports := [(4, pb0)] })), 0x0120#32, 7777#64, 0, 1#3, 3, by decide +kernel⟩,
   ⟨bt (fun b => { b with st := .acquiring, upstream := 4, upValid := true, acqLen := 70, offset := 12, ports := [(4, pb0)] }), by decide +kernel⟩,
   ⟨bt (fun b => { b with st := .acquiring, upstream := 4, upValid := true, acqLen := 64, offset := 0xFFFFFFF3, ports := [(4, pb0)] }), by decide +kernel⟩,
   ⟨leased (bt (fun b => { b with st := .locked, upstream := 4, ports := [(4, pb0)] })), by decide +kernel⟩,
   ⟨bt (fun b => { b with st := .locked }), by decide +kernel⟩,
   ⟨bt (fun b => { b with st := .locked, upstream := 6, upValid := true, unseen := 64, ports := [(4, pb0), (6, { pb0 with silent := 65 })] }), 4, 3, by decide +kernel⟩,
   ⟨bt (fun b => { b with st := .locked, upstream := 6, upValid := true, unseen := 64, ports := [(4, pb0), (6, { pb0 with silent := 65 })] }), by decide +kernel⟩,
   ⟨leased (bt (fun b => { b with st := .locked, upstream := 4, ports := [(4, pb0)] })), by decide +kernel⟩,
   ⟨bt (fun b => { b with st := .master, ptpEn := true }), by decide +kernel⟩⟩
theorem wit_RoutingControl :
  (∃ (s : State), Idle s ∧ fwUp s = true ∧ s.rt.draining = false ∧ drainLong s = true ∧ bankOk s (bankOfEpoch s !s.rt.cur) = true ∧ BitVec.toNat
    s.beat.now < BitVec.toNat s.rt.swBeat) ∧
  (∃ (s : State), Idle s ∧ fwUp s = true ∧ s.rt.draining = true) ∧
  (∃ (s : State), Idle s ∧ fwUp s = true ∧ bankOk s (bankOfEpoch s !s.rt.cur) = false) ∧
  (∃ (s : State), Idle s ∧ fwUp s = true) ∧
  (∃ (s : State), Idle s ∧ s.rt.armed = true ∧ BitVec.toNat s.rt.armAt ≤ BitVec.toNat s.beat.now ∧ cutDue s = false ∧ hintDue s = false) ∧
  (∃ (s : State), Idle s ∧ (s.rt.armed = false ∨ cutDue s = true ∨ hintDue s = true)) ∧
  (∃ (s : State), Idle s ∧ s.rt.draining = true ∧ s.rt.drainLeft = 0) ∧
  (∃ (s : State), Idle s) ∧
  (∃ (s : State), FwRuns s) ∧
  (∃ (s : State) (x : W64), FwRuns s ∧ s.rt.slice = 0 ∧ BitVec.toNat x % 64 = 0) ∧
  (∃ (s : State) (x : W64), FwRuns s ∧ s.rt.slice = 0 ∧ BitVec.toNat x % 2 ^ 17 ≤ 65536) ∧
  (∃ (s : State) (v : W32), FwRuns s ∧ s.rt.slice = 0 ∧ BitVec.toNat v / 4096 % 16 < 12) ∧
  (∃ (s : State), FwRuns s ∧ s.rt.slice = 0) ∧
  (∃ (s : State) (v : W32) (x : W64) (c : Instr), FwRuns s ∧ s.rt.slice ≠ 0 ∧ (c = Instr.rankTableWrite 589872 true x ∨ c = Instr.rankTableWrite
    589880 false x ∨ c = Instr.fabChipNumWrite v ∨ c = Instr.fabSeedSliceWrite v)) ∧
  (∃ (s : State) (v : W32), FwRuns s ∧ s.rt.slice = 0 ∧ BitVec.setWidth 12 v ≠ 0 ∧ s.lease.st = 1) ∧
  (∃ (s : State) (v : W32), FwRuns s ∧ s.rt.slice = 0 ∧ BitVec.setWidth 12 v ≠ 0 ∧ s.lease.st ≠ 1) ∧
  (∃ (s : State) (v : W32), FwRuns s ∧ s.rt.slice ≠ 0 ∧ BitVec.setWidth 12 v = 0) ∧
  (∃ (s : State) (v : W32), FwRuns s ∧ s.rt.slice ≠ 0 ∧ BitVec.setWidth 12 v ≠ 0 ∧ BitVec.setWidth 12 v ≠ s.rt.slice) ∧
  (∃ (s : State) (x : W64) (n : Nat) (w : Nat), FwRuns s ∧ n < 64 ∧ w < 4 ∧ (rgnGet s n).getLsbD 0 = false ∧ (setFld (rgnGet s n) (64 * w) 64
    (BitVec.toNat x) &&& rgnMask).getLsbD 0 = true ∧ rgnFits s (setFld (rgnGet s n) (64 * w) 64 (BitVec.toNat x) &&& rgnMask) = true) ∧
  (∃ (s : State) (x : W64) (n : Nat) (w : Nat), FwRuns s ∧ n < 64 ∧ w < 4 ∧ (rgnGet s n).getLsbD 0 = true ∧ rgnSame (rgnGet s n) (setFld (rgnGet s
    n) (64 * w) 64 (BitVec.toNat x) &&& rgnMask) = false) ∧
  (∃ (s : State) (x : W64) (n : Nat) (w : Nat), FwRuns s ∧ n < 64 ∧ w < 4 ∧ (rgnGet s n).getLsbD 0 = false ∧ (setFld (rgnGet s n) (64 * w) 64
    (BitVec.toNat x) &&& rgnMask).getLsbD 0 = true ∧ rgnFits s (setFld (rgnGet s n) (64 * w) 64 (BitVec.toNat x) &&& rgnMask) = false) :=
  ⟨⟨rtS (fun r => { r with swBeat := 10 }), by decide +kernel⟩,
   ⟨rtS (fun r => { r with draining := true, drainLeft := 0 }), by decide +kernel⟩,
   ⟨rtS (fun r => { r with bankB := { r.bankB with dir := 3 }, bankA := { r.bankA with dir := 3 } }), by decide +kernel⟩,
   ⟨rgS (rg 1), by decide +kernel⟩,
   ⟨rtS (fun r => { r with armed := true }), by decide +kernel⟩,
   ⟨rgS (rg 1), by decide +kernel⟩,
   ⟨rtS (fun r => { r with draining := true, drainLeft := 0 }), by decide +kernel⟩,
   ⟨rgS (rg 1), by decide +kernel⟩,
   ⟨rgS (rg 1), by decide +kernel⟩,
   ⟨rgS (rg 1), 0x20000#64, by decide +kernel⟩,
   ⟨rgS (rg 1), 0x20000#64, by decide +kernel⟩,
   ⟨rgS (rg 1), default, by decide +kernel⟩,
   ⟨rgS (rg 1), by decide +kernel⟩,
   ⟨rtS (fun r => { r with slice := 7 }), 0x1005#32, 0x1240#64, Instr.rankTableWrite 0x90030 true 0x1240#64, by decide +kernel⟩,
   ⟨leased (rtS id), 0x1005#32, by decide +kernel⟩,
   ⟨rtS id, 0x1005#32, by decide +kernel⟩,
   ⟨rtS (fun r => { r with slice := 7 }), 0x80000000#32, by decide +kernel⟩,
   ⟨rtS (fun r => { r with slice := 7 }), 0x1005#32, by decide +kernel⟩,
   ⟨rgS (rg 0), 0x51F#64, 3, 0, by decide +kernel⟩,
   ⟨rgS (rg 1), 0x20000#64, 3, 1, by decide +kernel⟩,
   ⟨rtS id, 0x10001#64, 0, 0, by decide +kernel⟩⟩
theorem wit_LinkFlits :
  (∃ (s : State) (p : Nat) (l : Nat), Idle s ∧ p < portsOf s ∧ (optGet s p).txLane.contains l = true ∧ (portGet s p).st = PortSt.down) ∧
  (∃ (s : State) (p : Nat) (l : Nat), Idle s ∧ p < portsOf s ∧ (optGet s p).txLane.contains l = true ∧ (portGet s p).st ≠ PortSt.down ∧ bypassed s
    p = false) ∧
  (∃ (s : State) (p : Nat) (l : Nat), Idle s ∧ p < portsOf s ∧ (optGet s p).txLane.contains l = true ∧ (portGet s p).st ≠ PortSt.down ∧ bypassed s
    p = true) ∧
  (∃ (s : State) (p : Nat) (l : Nat), Idle s ∧ p < portsOf s ∧ (optGet s p).txLane.contains l = true ∧ bypassed s p = false ∧ (portGet s p).st =
    PortSt.up) ∧
  (∃ (s : State) (p : Nat) (l : Nat) (f : Flit) (crc : W32), Idle s ∧ p < portsOf s ∧ (portGet s p).st = PortSt.up ∧ (optGet s p).rxLane.contains l
    = true ∧ bypassed s p = false ∧ (optGet s p).fec = false ∧ crc ≠ flitCrc f) ∧
  (∃ (s : State) (p : Nat) (l : Nat) (f : Flit), Idle s ∧ p < portsOf s ∧ (portGet s p).st = PortSt.up ∧ (optGet s p).rxLane.contains l = true ∧
    bypassed s p = false ∧ f.mtype = 0 ∧ f.kind = 1) ∧
  (∃ (s : State) (p : Nat) (l : Nat) (f : Flit), Idle s ∧ p < portsOf s ∧ (portGet s p).st = PortSt.up ∧ (optGet s p).rxLane.contains l = true ∧
    bypassed s p = false ∧ (optGet s p).rxLane.head? ≠ some l ∧ f.mtype = 0 ∧ f.kind = 0 ∧ f.seqn = ((portGet s p).lane l).rxExp) ∧
  (∃ (s : State) (p : Nat) (l : Nat) (cws : List (Nat × Bool)), Idle s ∧ p < portsOf s ∧ (portGet s p).st = PortSt.up ∧ (optGet s
    p).rxLane.contains l = true ∧ bypassed s p = false ∧ (optGet s p).fec = true ∧ (cws.any fun (c : Nat × Bool) => uncorrectable c.fst) = true) ∧
  (∃ (s : State) (p : Nat) (l : Nat), Idle s ∧ p < portsOf s ∧ (portGet s p).st = PortSt.up ∧ ((portGet s p).lane l).nakSent = true) ∧
  (∃ (s : State) (p : Nat) (c : Instr), Idle s ∧ p < portsOf s ∧ (c = Instr.linkSilenceTimeout p ∨ c = Instr.linkStallTimeout p ∧ (List.any
    (portGet s p).lanes fun (y : Nat × Lane) => y.snd.outstanding) = true ∨ c = Instr.retrain p ∧ fwUp s = true) ∧ (portGet s p).st = PortSt.up ∧
    (optGet s p).test = none ∧ PortPassing s p ∧ s.shf.jout = [] ∧ (∀ (n : Nat), n < 256 → (cktGet s n).st ≠ 2) ∧ ringsLocked s p = false) ∧
  (∃ (s : State) (p : Nat), Idle s ∧ p < portsOf s ∧ (List.any (portGet s p).lanes fun (y : Nat × Lane) => y.snd.outstanding) = false) ∧
  (∃ (s : State) (p : Nat), Idle s ∧ p < portsOf s ∧ (portGet s p).st = PortSt.train) ∧
  (∃ (s : State) (p : Nat), Idle s ∧ p < portsOf s ∧ (portGet s p).st = PortSt.up ∧ s.beat.st = BeatSt.locked ∧ (pbGet s p).marker ≠ none ∧ 64 ≤
    (pbGet s p).silent) ∧
  (∃ (s : State) (p : Nat), Idle s ∧ p < portsOf s ∧ (portGet s p).st = PortSt.up ∧ (pbGet s p).silent < 64) :=
  ⟨⟨pt 4 .down id, 4, 0, by decide +kernel⟩,
   ⟨upL laneSt [], 4, 0, by decide +kernel⟩,
   ⟨byp (upL laneSt []), 4, 0, by decide +kernel⟩,
   ⟨upL laneSt [], 4, 0, by decide +kernel⟩,
   ⟨upL laneSt [], 4, 0, fl 9, 7#32, by decide +kernel⟩,
   ⟨upL laneSt [], 4, 0, fl 9, by decide +kernel⟩,
   ⟨pt 4 .up (fun x => { x with lanes := [(0, laneSt)], vcs := [(2, { Vc.init 2 with cred := 1275 })] }), 4, 3,
    { fl 0 with kind := 0, crVc := 2, crCount := 7, ack := 10 }, by decide +kernel⟩,
   ⟨optUp (upL laneSt []), 4, 0, [(16, true), (3, true), (20, false)], by decide +kernel⟩,
   ⟨upL { laneSt with nakSent := true } [], 4, 0, by decide +kernel⟩,
   ⟨pt 4 .up id, 4, Instr.retrain 4, by decide +kernel⟩,
   ⟨pt 4 .train id, 4, by decide +kernel⟩,
   ⟨pt 4 .train id, 4, by decide +kernel⟩,
   ⟨{ pt 4 .up id with beat := { (pt 4 .up id).beat with st := .locked, ports := [(4, { pb0 with silent := 64 })] } }, 4, by decide +kernel⟩,
   ⟨upL laneSt [], 4, by decide +kernel⟩⟩
theorem wit_LinkTraining :
  (∃ (s : State) (p : Nat) (lanes : List Nat), Idle s ∧ PortIn s p PortSt.train ∧ ∀ (i : Nat), i < (optGet s p).rxMap.length → lanes.getD i
    ((optGet s p).rxLane.getD i i) = (optGet s p).rxLane.getD i i) ∧
  (∃ (s : State) (p : Nat) (lanes : List Nat), Idle s ∧ PortIn s p PortSt.train ∧ (∀ (i : Nat), i < (optGet s p).rxMap.length → lanes.getD i
    ((optGet s p).rxLane.getD i i) = (optGet s p).rxLane.getD i i) ∧ ringsLocked s p = false) ∧
  (∃ (s : State) (p : Nat) (id : PeerId), Idle s ∧ PortIn s p PortSt.ident ∧ peerFrom (portGet s p).parts = some id ∧ id.serial = Config.serial) ∧
  (∃ (s : State) (p : Nat) (id : PeerId), Idle s ∧ PortIn s p PortSt.ident ∧ peerFrom (portGet s p).parts = some id ∧ id.serial ≠ Config.serial ∧
    (reservedPort s p = true ∨ (portGet s p).peer = some id) ∧ (portGet s p).onHold = true) ∧
  (∃ (s : State) (p : Nat) (id : PeerId), Idle s ∧ PortIn s p PortSt.ident ∧ peerFrom (portGet s p).parts = some id ∧ id.serial ≠ Config.serial ∧
    (reservedPort s p = true ∨ (portGet s p).peer = some id) ∧ (portGet s p).onHold = false ∧ (optGet s p).test ≠ none) ∧
  (∃ (s : State) (p : Nat) (id : PeerId), Idle s ∧ PortIn s p PortSt.ident ∧ peerFrom (portGet s p).parts = some id ∧ id.serial ≠ Config.serial ∧
    (reservedPort s p = true ∨ (portGet s p).peer = some id) ∧ (portGet s p).onHold = false ∧ (optGet s p).test = none) ∧
  (∃ (s : State) (p : Nat) (id : PeerId), Idle s ∧ PortIn s p PortSt.ident ∧ peerFrom (portGet s p).parts = some id ∧ id.serial ≠ Config.serial ∧
    reservedPort s p = false ∧ (portGet s p).peer ≠ some id) ∧
  (∃ (s : State) (p : Nat), Idle s ∧ PortIn s p PortSt.ident ∧ peerFrom (portGet s p).parts = none) ∧
  (∃ (s : State) (p : Nat) (gen : Nat), Idle s ∧ fwUp s = true ∧ PortIn s p PortSt.hold ∧ (portGet s p).passed = true ∧ gen = (portGet s
    p).gen.toNat) ∧
  (∃ (s : State) (p : Nat) (gen : Nat), Idle s ∧ fwUp s = true ∧ p < portsOf s ∧ ((portGet s p).st ≠ PortSt.hold ∨ gen ≠ (portGet s p).gen.toNat ∨
    (portGet s p).passed = false)) ∧
  (∃ (s : State) (p : Nat), Idle s ∧ fwUp s = true ∧ PortIn s p PortSt.up ∧ ∀ (n : Nat), n < 256 → (cktGet s n).st ≠ 2) ∧
  (∃ (s : State) (p : Nat), Idle s ∧ fwUp s = true ∧ p < portsOf s ∧ (portGet s p).st ≠ PortSt.up) ∧
  (∃ (s : State) (p : Nat) (gen : Nat) (c : Instr), Idle s ∧ fwUp s = true ∧ portsOf s ≤ p ∧ (c = Instr.release p gen ∨ c = Instr.hold p ∨ c =
    Instr.retrain p)) :=
  ⟨⟨pt 4 .train id, 4, List.range 8, by decide +kernel⟩,
   ⟨pt 4 .train id, 4, List.range 8, by decide +kernel⟩,
   ⟨pt 4 .ident (fun x => { x with parts := partsOf Config.serial }), 4, ⟨Config.serial, 4, 2, false⟩, by decide +kernel, by decide +kernel, peerFrom_partsOf _, rfl⟩,
   ⟨pt 4 .ident (fun x => { x with parts := partsOf (Config.serial + 1), peer := some ⟨Config.serial + 1, 4, 2, false⟩, onHold := true }), 4,
    ⟨Config.serial + 1, 4, 2, false⟩, by decide +kernel, by decide +kernel, peerFrom_partsOf _, by simp, .inr rfl, rfl⟩,
   ⟨{ pt 4 .ident (fun x => { x with parts := partsOf (Config.serial + 1), peer := some ⟨Config.serial + 1, 4, 2, false⟩ }) with optics := { up.optics with ports := [(4, { OptPort.init with test := some 1 })] } },
    4, ⟨Config.serial + 1, 4, 2, false⟩, by decide +kernel, by decide +kernel, peerFrom_partsOf _, by simp, .inr rfl, rfl, by decide +kernel⟩,
   ⟨pt 4 .ident (fun x => { x with parts := partsOf (Config.serial + 1), peer := some ⟨Config.serial + 1, 4, 2, false⟩ }), 4, ⟨Config.serial + 1, 4,
    2, false⟩, by decide +kernel, by decide +kernel, peerFrom_partsOf _, by simp, .inr rfl, rfl, by decide +kernel⟩,
   ⟨pt 4 .ident (fun x => { x with parts := partsOf (Config.serial + 1) }), 4, ⟨Config.serial + 1, 4, 2, false⟩, by decide +kernel, by decide +kernel, peerFrom_partsOf _, by simp, by decide +kernel, nofun⟩,
   ⟨pt 4 .ident id, 4, by decide +kernel⟩,
   ⟨pt 4 .hold (fun x => { x with passed := true, gen := 3 }), 4, 3, by decide +kernel⟩,
   ⟨(let s := pt 4 .ident (fun x => { x with parts := prt 1, peer := some (pid 1) });
    { s with optics := { s.optics with ports := [(4, { OptPort.init with test := some 1 })] } }), 4, 0, by decide +kernel⟩,
   ⟨pt 4 .up id, 4, by decide +kernel⟩,
   ⟨(let s := pt 4 .ident (fun x => { x with parts := prt 1, peer := some (pid 1) });
    { s with optics := { s.optics with ports := [(4, { OptPort.init with test := some 1 })] } }), 4, by decide +kernel⟩,
   ⟨{ up with opt := .m10l6 }, 48, 0, Instr.release 48 0, by decide +kernel⟩⟩
theorem wit_PacketsForwarded :
  (∃ (s : State) (p : Nat) (v : Nat) (k : Packet), Idle s ∧ portUp s p = true ∧ reservedPort s p = false ∧ arrivedIn s p v k = true ∧ v ≠ 7 ∧
    k.ptype ≠ 7 ∧ k.ptype ≠ 8 ∧ fenced s k.src = false ∧ (k.mcast = true ∨ k.dst ≠ s.rt.chip)) ∧
  (∃ (s : State) (p : Nat) (v : Nat) (k : Packet), Idle s ∧ portUp s p = true ∧ reservedPort s p = false ∧ arrivedIn s p v k = true ∧ v ≠ 7 ∧
    (k.ptype = 7 ∨ k.ptype = 8)) ∧
  (∃ (s : State) (p : Nat) (k : Packet) (n : Nat), Idle s ∧ portUp s p = true ∧ reservedPort s p = false ∧ arrivedIn s p 7 k = true ∧ cktFind s p
    k.slice k.src k.dst = some n ∧ (cktGet s n).st = 2 ∧ (cktGet s n).out ≠ 127 ∧ (cktGet s n).out.toNat ≠ p ∧ fenced s k.src = false ∧ BitVec.toNat
    k.age < s.rt.ageLim.toNat ∧ mayForward s k = true) ∧
  (∃ (s : State) (p : Nat) (k : Packet), Idle s ∧ portUp s p = true ∧ reservedPort s p = false ∧ arrivedIn s p 7 k = true ∧ (cktFind s p k.slice
    k.src k.dst = none ∨ ∃ (n : Nat), cktFind s p k.slice k.src k.dst = some n ∧ (cktGet s n).st = 3)) ∧
  (∃ (s : State) (p : Nat) (k : Packet) (r : List Packet), Idle s ∧ portUp s p = true ∧ reservedPort s p = false ∧ (vcGet s p 6).arr = k :: r) ∧
  (∃ (s : State) (p : Nat), Idle s ∧ portUp s p = true ∧ reservedPort s p = false ∧ (vcGet s p 6).arr = []) :=
  ⟨⟨arr { tpk with mcast := true, dst := 0x1005 } 1 id, 4, 1, { tpk with mcast := true, dst := 0x1005 }, by (repeat' apply And.intro) <;> first | decide +kernel | rfl⟩,
   ⟨arr { tpk with ptype := 7 } 1 id, 4, 1, { tpk with ptype := 7 }, by (repeat' apply And.intro) <;> first | decide +kernel | rfl⟩,
   ⟨arr tpk 7 (fun s =>
    { s with ckt := { s.ckt with ents := [(2, { Ckt.free with st := 2, inp := 4, out := 5, slice := 5, src := 3, dst := 0x40 })] } }), 4, tpk, 2, by decide +kernel⟩,
   ⟨arr tpk 7 id, 4, tpk, by decide +kernel⟩,
   ⟨arr tpk 6 id, 4, tpk, ([] : List Packet), by decide +kernel⟩,
   ⟨arr { tpk with ptype := 7 } 1 id, 4, by decide +kernel⟩⟩
theorem wit_RemoteTargets :
  (∃ (s : State) (k : Packet) (a : Nat) (n : Nat), Idle s ∧ Sound s ∧ k.src = s.rt.chip ∧ k.mcast = false ∧ LoopArrives s k 0 ∧ n = fld k.aux 0 13
    ∧ targetCheck s k n 1 = Except.ok a) ∧
  (∃ (s : State) (k : Packet) (a : Nat) (c : Instr), Idle s ∧ Sound s ∧ k.src = s.rt.chip ∧ k.mcast = false ∧ (c = Instr.writeReq none k ∧
    LoopArrives s k 1 ∧ targetCheck s k k.payload.length 2 = Except.ok a ∨ c = Instr.mirrorWrite none k ∧ LoopArrives s k 6 ∧ targetCheck s k
    k.payload.length 4 = Except.ok a)) ∧
  (∃ (s : State) (k : Packet) (a : Nat) (w : Nat), Idle s ∧ Sound s ∧ k.src = s.rt.chip ∧ k.mcast = false ∧ LoopArrives s k 2 ∧ (w = if k.aop = 1 ∨
    k.aop = 3 then 4 else 8) ∧ targetCheck s k w 3 = Except.ok a) ∧
  (∃ (s : State) (k : Packet) (c : Instr) (r : Nat), Idle s ∧ Sound s ∧ k.src = s.rt.chip ∧ k.mcast = false ∧ (c = Instr.readReq none k ∧
    LoopArrives s k 0 ∧ r = 3 ∧ targetCheck s k (fld k.aux 0 13) 1 = Except.error stProt ∨ c = Instr.writeReq none k ∧ LoopArrives s k 1 ∧ r = 4 ∧
    targetCheck s k k.payload.length 2 = Except.error stProt ∨ c = Instr.mirrorWrite none k ∧ LoopArrives s k 6 ∧ r = 4 ∧ targetCheck s k
    k.payload.length 4 = Except.error stProt)) :=
  ⟨⟨loopS (lp 0 0x10010 []) id, lp 0 0x10010 [], 0x30010, 3, by (repeat' apply And.intro) <;> first | decide +kernel | rfl⟩,
   ⟨loopS (lp 1 0x10010 [5,6]) id, lp 1 0x10010 [5,6], 0x30010, Instr.writeReq none (lp 1 0x10010 [5,6]), by decide +kernel, by decide +kernel, rfl, rfl, .inl ⟨rfl, by decide +kernel, rfl⟩⟩,
   ⟨loopS { lp 2 0x10010 [5,6,0,0,0,0,0,0] with aop := 2 } id, { lp 2 0x10010 [5,6,0,0,0,0,0,0] with aop := 2 }, 0x30010, 8, by (repeat' apply And.intro) <;> first | decide +kernel | rfl⟩,
   ⟨loopS (lp 0 0x90010 []) id, lp 0 0x90010 [], Instr.readReq none (lp 0 0x90010 []), 3, by decide +kernel, by decide +kernel, rfl, rfl, .inl ⟨rfl, by decide +kernel, rfl, rfl⟩⟩⟩
theorem wit_RemoteAnswers :
  (∃ (s : State) (k : Packet) (c : Instr), Up s ∧ Sound s ∧ (c = Instr.readResp none k ∧ LoopArrives s k 3 ∨ c = Instr.writeAck none k ∧
    LoopArrives s k 4 ∨ c = Instr.atomicResp none k ∧ LoopArrives s k 5) ∧ outFind s (BitVec.toNat k.tag) = none ∧ Idle s) ∧
  (∃ (s : State) (k : Packet) (o : Outst) (x : RmtOp) (d : Nat), Up s ∧ Sound s ∧ LoopArrives s k 3 ∧ outFind s (BitVec.toNat k.tag) = some o ∧
    o.ptype = 0 ∧ o.dst = k.src ∧ k.status = 0 ∧ opGet s o.op = some x ∧ x.owner = Owner.desc d ∧ ∃ (a : Nat), o.loc = [(a, k.payload.length)] ∧
    hbmOk s a k.payload.length = true) ∧
  (∃ (s : State) (k : Packet) (o : Outst), Up s ∧ Sound s ∧ LoopArrives s k 4 ∧ outFind s (BitVec.toNat k.tag) = some o ∧ (o.ptype = 1 ∨ o.ptype =
    6) ∧ o.dst = k.src ∧ o.want = 0 ∧ k.status = 0) ∧
  (∃ (s : State) (k : Packet) (o : Outst), Up s ∧ Sound s ∧ LoopArrives s k 5 ∧ outFind s (BitVec.toNat k.tag) = some o ∧ o.ptype = 2 ∧ o.dst =
    k.src ∧ k.status = 0) ∧
  (∃ (s : State) (o : Outst) (x : RmtOp) (tag : Nat), Up s ∧ Sound s ∧ outFind s tag = some o ∧ opGet s o.op = some x) ∧
  (∃ (s : State) (k : Packet) (p : Nat) (v : Nat), Up s ∧ Sound s ∧ portUp s p = true ∧ reservedPort s p = true ∧ k.ptype = 8 ∧ arrivedOn s p k =
    some v ∧ k.slice = s.rt.slice ∧ BitVec.toNat k.stream = fld s.shf.jrnlDest 16 16 ∧ k.status = 0) :=
  ⟨⟨{ sliced up with rmt := { (sliced up).rmt with loop := [lp 3 0 [5,6,7]] } }, lp 3 0 [5,6,7], Instr.readResp none (lp 3 0 [5,6,7]), by decide +kernel⟩,
   ⟨ans (lp 3 0 [5,6,7]) (ou 9 0 0), lp 3 0 [5,6,7], ou 9 0 0, oop, 3, by (repeat' apply And.intro) <;> first | decide +kernel | rfl | exact ⟨0x500, by decide +kernel⟩⟩,
   ⟨ans (lp 4 0 []) (ou 9 1 0), lp 4 0 [], ou 9 1 0, by decide +kernel⟩,
   ⟨ans (lp 5 0 []) (ou 9 2 0), lp 5 0 [], ou 9 2 0, by decide +kernel⟩,
   ⟨ans (lp 3 0 [5,6,7]) (ou 9 0 0), ou 9 0 0, oop, 9, by decide +kernel⟩,
   ⟨sakS, sak, 4, 5, by decide +kernel⟩⟩
theorem wit_MirrorCommands :
  (∃ (s : State) (n : Nat) (w : Nat), FwRuns s ∧ n < 64 ∧ w < 8 ∧ ∀ (i : Nat), i < 64 → (mirGet s i).valid = false) ∧
  (∃ (s : State) (n : Nat) (w : Nat), FwRuns s ∧ n < 64 ∧ w < 8) ∧
  (∃ (s : State) (n : Nat) (w : Nat), FwRuns s ∧ n < 64 ∧ w < 8 ∧ (mirGet s n).valid = true) ∧
  (∃ (s : State) (n : Nat) (w : Nat) (v : W64), FwRuns s ∧ n < 64 ∧ w < 8 ∧ Idle s ∧ (mirGet s n).valid = false ∧ (w ≠ 0 ∨ BitVec.getLsbD v 0 =
    false)) ∧
  (∃ (s : State) (n : Nat) (w : Nat) (v : W64), FwRuns s ∧ n < 64 ∧ w < 8 ∧ (mirGet s n).valid = false ∧ w = 0 ∧ BitVec.getLsbD v 0 = true ∧
    BitVec.getLsbD v 1 = false ∧ mirAllowed s n (mirWith (mirGet s n) w v) = true) ∧
  (∃ (s : State) (n : Nat) (w : Nat) (v : W64), FwRuns s ∧ n < 64 ∧ w < 8 ∧ Idle s ∧ (mirGet s n).valid = false ∧ w = 0 ∧ BitVec.getLsbD v 0 = true
    ∧ mirAllowed s n (mirWith (mirGet s n) w v) = false ∧ sameDomain s (mirWith (mirGet s n) w v) = false) ∧
  (∃ (s : State) (n : Nat) (w : Nat) (v : W64), FwRuns s ∧ n < 64 ∧ w < 8 ∧ (mirGet s n).valid = true ∧ (mirGet s n).st ≠ 4 ∧ w = 0 ∧
    BitVec.getLsbD v 0 = false ∧ mirSame (mirGet s n) (mirWith (mirGet s n) w v) = true) ∧
  (∃ (s : State) (n : Nat) (w : Nat), FwRuns s ∧ n < 64 ∧ w < 8 ∧ (mirGet s n).valid = false ∧ (mirGet s n).rank = false ∧ mirAllowed s n (mirGet s
    n) = true) ∧
  (∃ (s : State) (n : Nat) (w : Nat), FwRuns s ∧ n < 64 ∧ w < 8 ∧ (mirGet s n).st = 3 ∧ (mirGet s n).rank = false ∧ s.rt.slice ≠ 0) ∧
  (∃ (s : State) (n : Nat) (w : Nat), FwRuns s ∧ n < 64 ∧ w < 8 ∧ Idle s ∧ (mirGet s n).st ≠ 3) ∧
  (∃ (s : State) (n : Nat) (w : Nat) (k : Nat) (r : MRange), FwRuns s ∧ n < 64 ∧ w < 8 ∧ List.find? (fun (y : MRange) => y.num == k && !y.sent)
    s.mir.ranges = some r ∧ r.ent = n ∧ behind s.mir.ranges r = false ∧ (mirGet s n).rank = false ∧ mirrorClash s (mirGet s n).partner ((mirGet s
    n).pbase + (r.addr - (mirGet s n).lbase)) r.data.length = false ∧ s.rt.slice ≠ 0) :=
  ⟨⟨mirS mirE id, 3, 0, by decide +kernel⟩,
   ⟨mirS mirE id, 3, 0, by decide +kernel⟩,
   ⟨mirS { mirE with valid := true, st := 2 } id, 3, 0, by decide +kernel⟩,
   ⟨mirS mirE id, 3, 0, 0x20000#64, by decide +kernel⟩,
   ⟨mirS mirE id, 3, 0, 0x0000000200090001#64, by decide +kernel⟩,
   ⟨up, 3, 0, 0x0000000200090001#64, by decide +kernel⟩,
   ⟨mirS { mirE with valid := true, st := 2 } id, 3, 0, 0x0000000200090000#64, by decide +kernel⟩,
   ⟨mirS mirE id, 3, 0, by decide +kernel⟩,
   ⟨mirS { mirE with valid := true, st := 3 } id, 3, 0, by decide +kernel⟩,
   ⟨mirS mirE id, 3, 0, by decide +kernel⟩,
   ⟨rngS, 3, 0, 0, rng0, by decide +kernel⟩⟩
theorem wit_LeaseAndFence :
  (∃ (s : State) (chip : Nat), Idle s ∧ fwUp s = true ∧ chip < 65536 ∧ s.rmt.out = [] ∧ (∀ (p : Nat), p < portsOf s → (portGet s p).inj = [] ∧
    (portGet s p).stall = []) ∧ (chip ≠ BitVec.toNat s.rt.chip ∨ s.lease.st = 2)) ∧
  (∃ (s : State) (chip : Nat), Idle s ∧ fwUp s = true ∧ chip < 65536 ∧ s.rmt.out = [] ∧ (∀ (p : Nat), p < portsOf s → (portGet s p).inj = [] ∧
    (portGet s p).stall = []) ∧ chip = BitVec.toNat s.rt.chip ∧ s.lease.st ≠ 2 ∧ NoWork s) ∧
  (∃ (s : State), Idle s ∧ fwUp s = true) ∧
  (∃ (s : State) (chip : Nat) (sq : W32) (c : Instr), Idle s ∧ fwUp s = true ∧ (c = Instr.add RegPath.host chip ∨ c = Instr.remove RegPath.host
    chip ∨ c = Instr.clearAll RegPath.host ∨ c = Instr.leaseRenew RegPath.host sq)) ∧
  (∃ (s : State) (sq : W32) (b : W64), Idle s ∧ fwUp s = true ∧ s.boot.stage = 13 ∧ s.lease.phase = 0 ∧ BitVec.toNat s.lease.lastSeq < BitVec.toNat
    sq ∧ s.lease.renewBeat = 0 ∧ b = s.beat.now + BitVec.setWidth 64 s.lease.len ∧ BitVec.toNat s.beat.now < BitVec.toNat b) ∧
  (∃ (s : State) (sq : W32), Idle s ∧ fwUp s = true ∧ BitVec.toNat sq ≤ BitVec.toNat s.lease.lastSeq) ∧
  (∃ (s : State), Idle s ∧ s.lease.st = 1 ∧ BitVec.toNat s.beat.now < BitVec.toNat s.lease.expiry) ∧
  (∃ (s : State), Idle s ∧ s.lease.st = 1 ∧ BitVec.toNat s.lease.expiry ≤ BitVec.toNat s.beat.now ∧ s.lease.phase ≠ 1 ∧ NoWork s) ∧
  (∃ (s : State), Idle s ∧ s.lease.phase = 1 ∧ BitVec.toNat s.lease.armedD ≤ BitVec.toNat s.beat.now ∧ NoWork s) ∧
  (∃ (s : State), Idle s ∧ s.lease.phase = 1 ∧ BitVec.toNat s.beat.now < BitVec.toNat s.lease.armedD) :=
  ⟨⟨lsd id, 4, by decide +kernel⟩,
   ⟨lsd id, 0, by decide +kernel⟩,
   ⟨lsd id, by decide +kernel⟩,
   ⟨lsd id, 4, 5#32, Instr.add .host 4, by decide +kernel⟩,
   ⟨lsd id, 6#32, 4194404#64, by decide +kernel⟩,
   ⟨lsd id, 5#32, by decide +kernel⟩,
   ⟨lsd (fun l => { l with st := 1, expiry := 101 }), by decide +kernel⟩,
   ⟨lsd (fun l => { l with st := 1, expiry := 100 }), by decide +kernel⟩,
   ⟨lsd (fun l => { l with phase := 1, armedD := 100 }), by decide +kernel⟩,
   ⟨lsd (fun l => { l with phase := 1, armedD := 101 }), by decide +kernel⟩⟩
theorem wit_ReclaimPhases :
  (∃ (s : State), Up s ∧ FwRuns s ∧ Idle s ∧ s.boot.stage = 13 ∧ s.lease.phase = 0 ∧ BitVec.toNat s.beat.now + 2 ≤ BitVec.toNat s.lease.deadline ∧
    BitVec.toNat s.lease.deadline ≤ BitVec.toNat s.beat.now + reclaimLimit s ∧ (∀ (n : Nat), n < 64 → (mirGet s n).st ≠ 4) ∧ ∀ (q : Nat), (quGet s
    q).got = []) ∧
  (∃ (s : State), Up s ∧ FwRuns s ∧ Idle s ∧ BitVec.toNat s.lease.deadline < BitVec.toNat s.beat.now + 2) ∧
  (∃ (s : State), Up s ∧ s.lease.phase = 1 ∧ (∀ (e : Nat × Queue), e ∈ s.hif.q → snapDone s e.fst = true) ∧ ∀ (e : Nat), e < 64 → (engGet s e).st =
    RunSt.stopped ∨ (engGet s e).st = RunSt.faulted) ∧
  (∃ (s : State), Up s ∧ s.lease.phase = 2 ∧ s.hif.started = [] ∧ (∀ (e : Nat × Queue), e ∈ s.hif.q → e.snd.st ≠ QSt.active ∨ e.snd.got = []) ∧ ∀
    (e : Nat), e < 64 → (engGet s e).st = RunSt.stopped ∨ (engGet s e).st = RunSt.faulted) ∧
  (∃ (s : State), Up s ∧ s.lease.phase = 3 ∧ s.mir.ranges = [] ∧ s.rmt.ops = []) ∧
  (∃ (s : State), Up s ∧ s.lease.phase = 5 ∧ Idle s ∧ ∀ (n : Nat), n < 256 → (cktGet s n).st = 0) :=
  ⟨⟨rcl 0 id, by (repeat' apply And.intro) <;> first | decide +kernel | rfl | (intro q; rfl)⟩,
   ⟨rcl 0 (fun s => { s with lease := { s.lease with deadline := 101 } }), by decide +kernel⟩,
   ⟨rcl 1 (qd { act with snap := some 6 }), by decide +kernel⟩,
   ⟨rcl 2 (qd act), by decide +kernel⟩,
   ⟨rcl 3 id, by decide +kernel⟩,
   ⟨rcl 5 (fun s => { s with ckt := { s.ckt with ents := [] }, mem := ⟨[(5, 5)], []⟩ }), by decide +kernel⟩⟩
theorem wit_DieInterfaces :
  (∃ (s : State) (i : Nat) (most : Nat) (spares : List Nat), Idle s ∧ i < 24 ∧ ¬i ∈ s.ms.sitesLost ∧ most = List.foldl max 0 (List.take (wireGroups
    i) spares) ∧ ¬i ∈ s.ms.retrain) ∧
  (∃ (s : State) (i : Nat) (most : Nat) (spares : List Nat), Idle s ∧ i < 24 ∧ ¬i ∈ s.ms.sitesLost ∧ most = List.foldl max 0 (List.take (wireGroups
    i) spares) ∧ ¬i ∈ s.ms.retrain ∧ tblGet (fun (x : Nat) => 0) s.ms.resend i < 15) ∧
  (∃ (s : State) (i : Nat) (most : Nat) (spares : List Nat), Idle s ∧ i < 24 ∧ ¬i ∈ s.ms.sitesLost ∧ most = List.foldl max 0 (List.take (wireGroups
    i) spares) ∧ ¬i ∈ s.ms.retrain ∧ 15 ≤ tblGet (fun (x : Nat) => 0) s.ms.resend i) ∧
  (∃ (s : State) (i : Nat) (most : Nat) (spares : List Nat), Idle s ∧ i < 24 ∧ ¬i ∈ s.ms.sitesLost ∧ most = List.foldl max 0 (List.take (wireGroups
    i) spares) ∧ i ∈ s.ms.retrain ∧ most ≤ 4) ∧
  (∃ (s : State) (i : Nat) (most : Nat) (spares : List Nat), Idle s ∧ i < 24 ∧ ¬i ∈ s.ms.sitesLost ∧ most = List.foldl max 0 (List.take (wireGroups
    i) spares) ∧ i ∈ s.ms.retrain ∧ 4 < most ∧ i < 4) ∧
  (∃ (s : State) (i : Nat) (most : Nat) (spares : List Nat) (d : Nat), Idle s ∧ i < 24 ∧ ¬i ∈ s.ms.sitesLost ∧ most = List.foldl max 0 (List.take
    (wireGroups i) spares) ∧ i ∈ s.ms.retrain ∧ 4 < most ∧ d < 4 ∧ i = 20 + d ∧ ∀ (e : Nat), e < 64 → (engGet s e).exec = []) :=
  ⟨⟨up, 0, 1, [1, 0, 1], by decide +kernel⟩,
   ⟨up, 0, 1, [1, 0, 1], by decide +kernel⟩,
   ⟨{ up with ms := { up.ms with resend := [(0, 14), (21, 15)] } }, 21, 1, [1, 0, 1], by decide +kernel⟩,
   ⟨{ up with ms := { up.ms with retrain := [0, 21, 23] } }, 0, 1, [1, 0, 1], by decide +kernel⟩,
   ⟨{ up with ms := { up.ms with retrain := [0, 21, 23] } }, 0, 5, [5, 1], by decide +kernel⟩,
   ⟨{ up with ms := { up.ms with retrain := [0, 21, 23] } }, 21, 5, [5, 1], 1, by decide +kernel⟩⟩
theorem wit_SheafControl :
  (∃ (s : State) (d : Nat), Up s ∧ d < 4 ∧ (∀ (e : Nat), e < 64 → (engGet s e).exec = []) ∧ fwUp s = true) ∧
  (∃ (s : State) (d : Nat), Up s ∧ d < 4 ∧ (∀ (e : Nat), e < 64 → (engGet s e).exec = []) ∧ fwUp s = true ∧ ((sheafGet s d).st = SheafSt.ready ∨
    (sheafGet s d).st = SheafSt.window)) ∧
  (∃ (s : State) (d : Nat), Up s ∧ d < 4 ∧ (∀ (e : Nat), e < 64 → (engGet s e).exec = []) ∧ fwUp s = true ∧ hbmOk s (BitVec.toNat s.shf.imageAt)
    33344 = true ∧ readFails s (BitVec.toNat s.shf.imageAt) 33344 = false ∧ (sheafGet s d).st = SheafSt.ready) ∧
  (∃ (s : State) (d : Nat), Up s ∧ d < 4 ∧ (∀ (e : Nat), e < 64 → (engGet s e).exec = []) ∧ fwUp s = true ∧ hbmOk s (BitVec.toNat s.shf.imageAt)
    33344 = true ∧ readFails s (BitVec.toNat s.shf.imageAt) 33344 = false ∧ (sheafGet s d).st ≠ SheafSt.ready) ∧
  (∃ (s : State) (d : Nat), Up s ∧ d < 4 ∧ (∀ (e : Nat), e < 64 → (engGet s e).exec = []) ∧ fwUp s = true ∧ hbmOk s (BitVec.toNat s.shf.imageAt)
    33344 = false) ∧
  (∃ (s : State) (d : Nat), Up s ∧ d < 4 ∧ (∀ (e : Nat), e < 64 → (engGet s e).exec = []) ∧ (sheafGet s d).st = SheafSt.warming) ∧
  (∃ (s : State) (d : Nat), Up s ∧ d < 4 ∧ (∀ (e : Nat), e < 64 → (engGet s e).exec = []) ∧ (sheafGet s d).st = SheafSt.warming ∧ (sheafGet s
    d).tries < 2) ∧
  (∃ (s : State) (d : Nat), Up s ∧ d < 4 ∧ (∀ (e : Nat), e < 64 → (engGet s e).exec = []) ∧ (sheafGet s d).st = SheafSt.warming ∧ 2 ≤ (sheafGet s
    d).tries) ∧
  (∃ (s : State) (d : Nat), Up s ∧ d < 4 ∧ (∀ (e : Nat), e < 64 → (engGet s e).exec = []) ∧ (sheafGet s d).st = SheafSt.calibrating ∧ (sheafGet s
    d).heldNext = false) ∧
  (∃ (s : State) (d : Nat), Up s ∧ d < 4 ∧ (∀ (e : Nat), e < 64 → (engGet s e).exec = []) ∧ (sheafGet s d).st = SheafSt.calibrating ∧ (sheafGet s
    d).heldNext = true) ∧
  (∃ (s : State) (d : Nat), Up s ∧ d < 4 ∧ (∀ (e : Nat), e < 64 → (engGet s e).exec = []) ∧ (sheafGet s d).st = SheafSt.calibrating ∧ (sheafGet s
    d).tries = 0) ∧
  (∃ (s : State) (d : Nat), Up s ∧ d < 4 ∧ (∀ (e : Nat), e < 64 → (engGet s e).exec = []) ∧ (sheafGet s d).st = SheafSt.calibrating ∧ (sheafGet s
    d).tries ≠ 0) ∧
  (∃ (s : State) (d : Nat) (cv : Nat) (cu : Nat), Up s ∧ d < 4 ∧ (∀ (e : Nat), e < 64 → (engGet s e).exec = []) ∧ (sheafGet s d).st =
    SheafSt.calibrating ∧ ((sheafGet s d).spareV < cv ∨ (sheafGet s d).spareU < cu)) ∧
  (∃ (s : State) (d : Nat), Up s ∧ d < 4 ∧ (∀ (e : Nat), e < 64 → (engGet s e).exec = []) ∧ (sheafGet s d).st = SheafSt.window ∧ (sheafGet s
    d).held = none ∧ (sheafGet s d).progNow = false) ∧
  (∃ (s : State) (d : Nat), Up s ∧ d < 4 ∧ (∀ (e : Nat), e < 64 → (engGet s e).exec = []) ∧ (sheafGet s d).st = SheafSt.window ∧ (sheafGet s
    d).progNow = true) ∧
  (∃ (s : State) (d : Nat), Up s ∧ d < 4 ∧ (∀ (e : Nat), e < 64 → (engGet s e).exec = []) ∧ (sheafGet s d).st = SheafSt.window ∧ (sheafGet s
    d).progNow = false ∧ (sheafGet s d).held ≠ none ∧ (sheafGet s d).heldWin = true) ∧
  (∃ (s : State) (d : Nat), Up s ∧ d < 4 ∧ (∀ (e : Nat), e < 64 → (engGet s e).exec = []) ∧ (sheafGet s d).st = SheafSt.window) ∧
  (∃ (s : State) (d : Nat), Up s ∧ d < 4 ∧ (sheafGet s d).st = SheafSt.ready ∧ 40000000 ≤ sinceCal s (sheafGet s d) ∧ grainsWait s d = false ∧
    windowWaits s = false) ∧
  (∃ (s : State) (d : Nat), Up s ∧ d < 4 ∧ (sheafGet s d).st = SheafSt.ready ∧ sinceCal s (sheafGet s d) < 40000000) ∧
  (∃ (s : State) (d : Nat), Up s ∧ d < 4 ∧ (sheafGet s d).st = SheafSt.ready ∧ 49750000 ≤ sinceCal s (sheafGet s d) ∧ grainsWait s d = false ∧
    windowWaits s = false) ∧
  (∃ (s : State) (d : Nat), Up s ∧ d < 4 ∧ (sheafGet s d).st = SheafSt.ready ∧ 49750000 ≤ sinceCal s (sheafGet s d) ∧ grainsWait s d = true ∧
    windowWaits s = false) ∧
  (∃ (s : State) (d : Nat), Up s ∧ d < 4 ∧ windowWaits s = true) ∧
  (∃ (s : State) (d : Nat), Up s ∧ d < 4 ∧ (sheafGet s d).st = SheafSt.ready ∧ sinceCal s (sheafGet s d) < 49750000) ∧
  (∃ (s : State) (d : Nat) (rate : Int) (c : Instr), Up s ∧ d < 4 ∧ (c = Instr.sheafLockLost d ∨ c = Instr.photonicRateSample d rate ∧ 3000 <
    rate.natAbs) ∧ ((sheafGet s d).st = SheafSt.ready ∨ (sheafGet s d).st = SheafSt.window ∨ (sheafGet s d).st = SheafSt.calibrating)) ∧
  (∃ (s : State) (d : Nat) (rate : Int), Up s ∧ d < 4 ∧ rate.natAbs ≤ 3000) ∧
  (∃ (s : State) (d : Nat), Up s ∧ d < 4 ∧ (sheafGet s d).st = SheafSt.unlocked) :=
  ⟨⟨shs (fun x => { x with st := .calibrating, heldNext := true }), 1, by decide +kernel⟩,
   ⟨shs (fun x => { x with st := .window, progNow := true, held := some [] }), 1, by decide +kernel⟩,
   ⟨leased (shs (fun x => { x with st := .ready })), 1, by decide +kernel⟩,
   ⟨shs (fun x => { x with st := .calibrating, heldNext := true }), 1, by decide +kernel⟩,
   ⟨{ shs id with shf := { (shs id).shf with imageAt := 0xFFFFFFFFFFFF } }, 1, by decide +kernel⟩,
   ⟨shs (fun x => { x with st := .warming, tries := 1 }), 1, by decide +kernel⟩,
   ⟨shs (fun x => { x with st := .warming, tries := 1 }), 1, by decide +kernel⟩,
   ⟨shs (fun x => { x with st := .warming, tries := 2 }), 1, by decide +kernel⟩,
   ⟨shs (fun x => { x with st := .calibrating, tries := 1 }), 1, by decide +kernel⟩,
   ⟨shs (fun x => { x with st := .calibrating, heldNext := true }), 1, by decide +kernel⟩,
   ⟨shs (fun x => { x with st := .calibrating, heldNext := true }), 1, by decide +kernel⟩,
   ⟨shs (fun x => { x with st := .calibrating, tries := 1 }), 1, by decide +kernel⟩,
   ⟨shs (fun x => { x with st := .calibrating, tries := 1 }), 1, 0, 3, by decide +kernel⟩,
   ⟨shs (fun x => { x with st := .window }), 1, by decide +kernel⟩,
   ⟨shs (fun x => { x with st := .window, progNow := true, held := some [] }), 1, by decide +kernel⟩,
   ⟨shs (fun x => { x with st := .window, heldWin := true, held := some [] }), 1, by decide +kernel⟩,
   ⟨shs (fun x => { x with st := .window, progNow := true, held := some [] }), 1, by decide +kernel⟩,
   ⟨shs (fun x => { x with st := .ready }), 1, by decide +kernel⟩,
   ⟨{ shs (fun x => { x with st := .ready }) with beat := { up.beat with now := 10000 } }, 1, by decide +kernel⟩,
   ⟨shs (fun x => { x with st := .ready }), 1, by decide +kernel⟩,
   ⟨grain, 1, by decide +kernel⟩,
   ⟨leased (shs (fun x => { x with st := .ready })), 1, by decide +kernel⟩,
   ⟨{ shs (fun x => { x with st := .ready }) with beat := { up.beat with now := 10000 } }, 1, by decide +kernel⟩,
   ⟨grain, 1, (3001 : Int), Instr.sheafLockLost 1, by decide +kernel⟩,
   ⟨shs (fun x => { x with st := .calibrating, heldNext := true }), 1, default, by decide +kernel⟩,
   ⟨shs (fun x => { x with st := .unlocked }), 1, by decide +kernel⟩⟩
theorem wit_RingLoops :
  (∃ (s : State) (r : RingId), Idle s ∧ ringOk s r = true ∧ (loopGet s r).st = RingSt.sweep) ∧
  (∃ (s : State) (r : RingId), Idle s ∧ ringOk s r = true ∧ (loopGet s r).st = RingSt.sweep ∧ (loopGet s r).narrow = true) ∧
  (∃ (s : State) (r : RingId), Idle s ∧ ringOk s r = true ∧ (loopGet s r).st = RingSt.sweep ∧ (loopGet s r).narrow = false ∧ (loopGet s r).full < 2) ∧
  (∃ (s : State) (r : RingId), Idle s ∧ ringOk s r = true ∧ (loopGet s r).st = RingSt.sweep ∧ (loopGet s r).narrow = false ∧ 2 ≤ (loopGet s r).full) ∧
  (∃ (s : State) (r : RingId), Idle s ∧ ringOk s r = true ∧ (loopGet s r).st = RingSt.capture) ∧
  (∃ (s : State) (r : RingId) (pilot : Option Nat) (margin : Nat), Idle s ∧ ringOk s r = true ∧ (loopGet s r).st = RingSt.verify ∧ pilot = some
    (ringChannel r) ∧ 10 ≤ margin) ∧
  (∃ (s : State) (r : RingId) (pilot : Option Nat) (margin : Nat), Idle s ∧ ringOk s r = true ∧ (loopGet s r).st = RingSt.verify ∧ (pilot = some
    (ringChannel r) ∨ pilot = none) ∧ margin < 10) ∧
  (∃ (s : State) (r : RingId) (pilot : Option Nat), Idle s ∧ ringOk s r = true ∧ (loopGet s r).st = RingSt.verify ∧ pilot ≠ some (ringChannel r) ∧
    pilot ≠ none) ∧
  (∃ (s : State) (r : RingId) (pilot : Option Nat), Idle s ∧ ringOk s r = true ∧ (loopGet s r).st = RingSt.locked ∧ pilot = some (ringChannel r)) ∧
  (∃ (s : State) (r : RingId) (pilot : Option Nat), Idle s ∧ ringOk s r = true ∧ (loopGet s r).st = RingSt.locked ∧ pilot ≠ some (ringChannel r) ∧
    (loopGet s r).bad = 0) ∧
  (∃ (s : State) (r : RingId) (pilot : Option Nat), Idle s ∧ ringOk s r = true ∧ (loopGet s r).st = RingSt.locked ∧ pilot ≠ some (ringChannel r) ∧
    (loopGet s r).bad ≠ 0 ∧ ringUnused s r = true) ∧
  (∃ (s : State) (r : RingId), Idle s ∧ ringOk s r = true ∧ (loopGet s r).st = RingSt.locked ∧ ringUnused s r = true) :=
  ⟨⟨rgS2 rr (fun x => { x with st := .sweep }), rr, by decide +kernel⟩,
   ⟨rgS2 rr (fun x => { x with st := .sweep }), rr, by decide +kernel⟩,
   ⟨rgS2 rr (fun x => { x with st := .sweep, narrow := false }), rr, by decide +kernel⟩,
   ⟨rgS2 rr (fun x => { x with st := .sweep, narrow := false, full := 2 }), rr, by decide +kernel⟩,
   ⟨rgS2 rr (fun x => { x with st := .capture }), rr, by decide +kernel⟩,
   ⟨rgS2 rr (fun x => { x with st := .verify }), rr, some 8, 10, by decide +kernel⟩,
   ⟨rgS2 rr (fun x => { x with st := .verify }), rr, some 8, 9, by decide +kernel⟩,
   ⟨rgS2 rr (fun x => { x with st := .verify }), rr, some 7, by decide +kernel⟩,
   ⟨rgS2 rr (fun x => { x with st := .locked, bad := 1 }), rr, some 8, by decide +kernel⟩,
   ⟨rgS2 rr (fun x => { x with st := .locked }), rr, some 7, by decide +kernel⟩,
   ⟨rgS2 rr (fun x => { x with st := .locked, bad := 1 }), rr, some 7, by decide +kernel⟩,
   ⟨rgS2 rr (fun x => { x with st := .locked, bad := 1 }), rr, by decide +kernel⟩⟩
theorem wit_OpticalControl :
  (∃ (s : State) (n : Nat) (k : Nat) (reports : List Nat) (v : Int), Idle s ∧ n < 3 * ioDiesOf s ∧ k < 9 ∧ (bankGet s n).st = 1 ∧ leastPower s
    (List.filter (fun (p : Nat) => reports.contains p) (bankPorts n (bankGet s n))) k = some v) ∧
  (∃ (s : State) (n : Nat) (k : Nat) (reports : List Nat), Idle s ∧ n < 3 * ioDiesOf s ∧ k < 9 ∧ leastPower s (List.filter (fun (p : Nat) =>
    reports.contains p) (bankPorts n (bankGet s n))) k = none) ∧
  (∃ (s : State) (n : Nat) (k : Nat) (sp : Nat) (c : Instr), Idle s ∧ n < 3 * ioDiesOf s ∧ k < 9 ∧ (c = Instr.bankSwapStart n ∨ c = Instr.optSwap n
    ∧ fwUp s = true) ∧ (bankGet s n).st = 1 ∧ (bankGet s n).pend = true ∧ spareBank s (n / 3) = some sp ∧ PortsDown s n) ∧
  (∃ (s : State) (n : Nat) (k : Nat), Idle s ∧ n < 3 * ioDiesOf s ∧ k < 9 ∧ (bankGet s n).pend = false) ∧
  (∃ (s : State) (n : Nat) (k : Nat) (c : Instr), Idle s ∧ n < 3 * ioDiesOf s ∧ k < 9 ∧ (c = Instr.bankSwapStart n ∨ c = Instr.optSwap n ∧ fwUp s =
    true) ∧ (bankGet s n).st = 1 ∧ (bankGet s n).pend = true ∧ spareBank s (n / 3) = none ∧ PortsDown s n) ∧
  (∃ (s : State) (n : Nat) (k : Nat) (sp : Nat) (c : Instr), Idle s ∧ n < 3 * ioDiesOf s ∧ k < 9 ∧ ((c = Instr.bankSwapStart n ∧ ∀ (p : Nat), p ∈
    bankPorts n (bankGet s n) → (portGet s p).st = PortSt.hold ∨ (portGet s p).st = PortSt.down) ∨ c = Instr.optSwap n ∧ fwUp s = true) ∧ (bankGet s
    n).st = 1 ∧ (bankGet s n).pend = true ∧ spareBank s (n / 3) = some sp ∧ s.shf.jout = [] ∧ (∀ (m : Nat), m < 256 → (cktGet s m).st ≠ 2) ∧ ∀ (p :
    Nat), p ∈ bankPorts n (bankGet s n) → PortPassing s p) ∧
  (∃ (s : State) (n : Nat) (k : Nat) (sp : Nat) (v : Int), Idle s ∧ n < 3 * ioDiesOf s ∧ k < 9 ∧ (bankGet s n).st = 1 ∧ (bankGet s n).pend = true ∧
    biasOf s n k = 200 ∧ leastPower s (bankPorts n (bankGet s n)) k = some v ∧ v < BitVec.toInt s.optics.rxTarget - 300 ∧ spareBank s (n / 3) = some
    sp ∧ s.shf.jout = [] ∧ (∀ (m : Nat), m < 256 → (cktGet s m).st ≠ 2) ∧ ∀ (p : Nat), p ∈ bankPorts n (bankGet s n) → PortPassing s p) ∧
  (∃ (s : State) (n : Nat) (k : Nat) (v : Int), Idle s ∧ n < 3 * ioDiesOf s ∧ k < 9 ∧ (bankGet s n).st = 1 ∧ (bankGet s n).pend = true ∧ biasOf s n
    k = 200 ∧ leastPower s (bankPorts n (bankGet s n)) k = some v ∧ v < BitVec.toInt s.optics.rxTarget - 300 ∧ spareBank s (n / 3) = none) ∧
  (∃ (s : State) (n : Nat) (k : Nat) (sp : Nat), Idle s ∧ n < 3 * ioDiesOf s ∧ k < 9 ∧ List.find? (fun (m : Nat) => (bankGet s m).swapTo == some n)
    (List.map (fun (i : Nat) => 3 * (n / 3) + i) (List.range 3)) = some sp ∧ sp ≠ n ∧ ∀ (m : Nat), (bankGet s m).swapTo ≠ some sp) ∧
  (∃ (s : State) (p : Nat) (least : Nat) (tx : List Nat) (rx : List Nat), Idle s ∧ p < portsOf s ∧ least = List.foldl (fun (m v : Nat) => min m v)
    255 (laneMargins s p true tx ++ laneMargins s p false rx) ∧ fwUp s = true ∧ (portGet s p).st = PortSt.hold ∧ (optGet s p).test = none) ∧
  (∃ (s : State) (p : Nat) (least : Nat) (tx : List Nat) (rx : List Nat), Idle s ∧ p < portsOf s ∧ least = List.foldl (fun (m v : Nat) => min m v)
    255 (laneMargins s p true tx ++ laneMargins s p false rx) ∧ fwUp s = true ∧ (portGet s p).st ≠ PortSt.hold) ∧
  (∃ (s : State) (p : Nat) (least : Nat) (tx : List Nat) (rx : List Nat), Idle s ∧ p < portsOf s ∧ least = List.foldl (fun (m v : Nat) => min m v)
    255 (laneMargins s p true tx ++ laneMargins s p false rx) ∧ (optGet s p).test ≠ none ∧ (optGet s p).again = false ∧ BitVec.toNat s.optics.mMin ≤
    least) ∧
  (∃ (s : State) (p : Nat) (least : Nat) (tx : List Nat) (rx : List Nat), Idle s ∧ p < portsOf s ∧ least = List.foldl (fun (m v : Nat) => min m v)
    255 (laneMargins s p true tx ++ laneMargins s p false rx) ∧ (optGet s p).test ≠ none ∧ (optGet s p).again = true) ∧
  (∃ (s : State) (p : Nat) (least : Nat) (tx : List Nat) (rx : List Nat), Idle s ∧ p < portsOf s ∧ least = List.foldl (fun (m v : Nat) => min m v)
    255 (laneMargins s p true tx ++ laneMargins s p false rx) ∧ (optGet s p).test ≠ none ∧ (optGet s p).again = false ∧ least < BitVec.toNat
    s.optics.mMin ∧ (optGet s p).fec = false) ∧
  (∃ (s : State) (p : Nat) (least : Nat) (tx : List Nat) (rx : List Nat) (ret : BitVec 9) (ln : List Nat) (m : List Nat), Idle s ∧ p < portsOf s ∧
    least = List.foldl (fun (m v : Nat) => min m v) 255 (laneMargins s p true tx ++ laneMargins s p false rx) ∧ (optGet s p).test ≠ none ∧ (optGet s
    p).again = false ∧ (optGet s p).fec = true ∧ ((laneMargins s p true tx).any fun (y : Nat) => decide (y < BitVec.toNat s.optics.mMin)) = true ∧
    ((laneMargins s p false rx).any fun (y : Nat) => decide (y < BitVec.toNat s.optics.mMin)) = false ∧ nextStep (optGet s p).txRet (optGet s
    p).txLane (optGet s p).txMap (worstLane s p true (laneMargins s p true tx)) = some (ret, ln, m)) ∧
  (∃ (s : State) (p : Nat) (least : Nat) (tx : List Nat) (rx : List Nat), Idle s ∧ p < portsOf s ∧ least = List.foldl (fun (m v : Nat) => min m v)
    255 (laneMargins s p true tx ++ laneMargins s p false rx) ∧ BitVec.getLsbD s.optics.ctrl 0 = true ∧ (portGet s p).st = PortSt.up ∧ (optGet s
    p).again = false ∧ PortPassing s p ∧ s.shf.jout = [] ∧ ∀ (i : Nat), i < 256 → (cktGet s i).st ≠ 2) ∧
  (∃ (s : State) (p : Nat) (least : Nat) (tx : List Nat) (rx : List Nat), Idle s ∧ p < portsOf s ∧ least = List.foldl (fun (m v : Nat) => min m v)
    255 (laneMargins s p true tx ++ laneMargins s p false rx) ∧ BitVec.getLsbD s.optics.ctrl 0 = false) ∧
  (∃ (s : State) (p : Nat) (n : Nat) (least : Nat) (tx : List Nat) (rx : List Nat) (v : W32), Idle s ∧ p < portsOf s ∧ least = List.foldl (fun (m v
    : Nat) => min m v) 255 (laneMargins s p true tx ++ laneMargins s p false rx) ∧ fwUp s = true ∧ n = BitVec.toNat v % 64 ∧ 4 ≤ n ∧ n ≤ 40 ∧ n ≤
    s.optics.slew.toNat) ∧
  (∃ (s : State) (p : Nat) (least : Nat) (tx : List Nat) (rx : List Nat) (v : W32), Idle s ∧ p < portsOf s ∧ least = List.foldl (fun (m v : Nat) =>
    min m v) 255 (laneMargins s p true tx ++ laneMargins s p false rx) ∧ fwUp s = true ∧ s.optics.slew.toNat < BitVec.toNat v % 64) :=
  ⟨⟨bk id, 1, 2, [4], (-768 : Int), by decide +kernel⟩,
   ⟨{ up with optics := { up.optics with banks := [(1, { Bank.init 1 with pend := true }), (2, { Bank.init 2 with st := 3 })] } }, 1, 2, [4], by decide +kernel⟩,
   ⟨{ up with optics := { up.optics with banks := [(1, { Bank.init 1 with pend := true })] } }, 1, 2, 2, Instr.bankSwapStart 1, by decide +kernel⟩,
   ⟨bk id, 1, 2, by decide +kernel⟩,
   ⟨{ up with optics := { up.optics with banks := [(1, { Bank.init 1 with pend := true }), (2, { Bank.init 2 with st := 3 })] } }, 1, 2,
    Instr.bankSwapStart 1, by decide +kernel⟩,
   ⟨{ up with optics := { up.optics with banks := [(1, { Bank.init 1 with pend := true })] } }, 1, 2, 2, Instr.bankSwapStart 1, by decide +kernel⟩,
   ⟨{ bk (fun b => { b with pend := true, bias := [(2, 200)] }) with optics := { (bk (fun b => { b with pend := true, bias := [(2, 200)] })).optics with ports := [(4, { OptPort.init with far := [(2, 0xDCD9)] })] } },
    1, 2, 2, (-9000 : Int), by decide +kernel⟩,
   ⟨{ bk (fun b => { b with pend := true, bias := [(2, 200)] }) with optics := { (bk (fun b => { b with pend := true, bias := [(2, 200)] })).optics with banks := (bk (fun b => { b with pend := true, bias := [(2, 200)] })).optics.banks ++ [(2, { Bank.init 2 with st := 3 })], ports := [(4, { OptPort.init with far := [(2, 0xDCD9)] })] } },
    1, 2, (-9000 : Int), by decide +kernel⟩,
   ⟨{ up with optics := { up.optics with banks := [(1, { Bank.init 1 with pend := true }), (2, { Bank.init 2 with swapTo := some 1 })] }, thm := { up.thm with zones := [(49, some { Zone.fitted 49 with temp := 80 })] }, boot := { up.boot with sectOk := 0xFF } },
    1, 2, 2, by (repeat' apply And.intro) <;> first | decide +kernel | (intro m; rcases m with _ | _ | _ | m <;> first | decide +kernel | exact nofun)⟩,
   ⟨opp .hold id, 4, 20, List.replicate 8 20, List.replicate 8 20, by decide +kernel⟩,
   ⟨bk id, 0, 0, default, default, by decide +kernel⟩,
   ⟨opp .hold (fun o => { o with test := some 1 }), 4, 20, List.replicate 8 20, List.replicate 8 20, by decide +kernel⟩,
   ⟨opp .hold (fun o => { o with test := some 1, again := true }), 4, 20, List.replicate 8 20, List.replicate 8 20, by decide +kernel⟩,
   ⟨opp .hold (fun o => { o with test := some 1 }), 4, 14, [20,20,20,14,20,20,20,20], List.replicate 8 20, by decide +kernel⟩,
   ⟨opp .hold (fun o => { o with test := some 1, fec := true, mstate := 1 }), 4, 14, [20,20,20,14,20,20,20,20], List.replicate 8 20, 8#9, List.range
    8, [0,1,2,8,4,5,6,7], by decide +kernel⟩,
   ⟨opp .up id, 4, 0, default, default, by decide +kernel⟩,
   ⟨(let s := opp .up id; { s with optics := { s.optics with ctrl := 0 } }), 4, 0, default, default, by decide +kernel⟩,
   ⟨opp .hold id, 4, 30, 20, List.replicate 8 20, List.replicate 8 20, 30#32, by decide +kernel⟩,
   ⟨opp .hold id, 4, 20, List.replicate 8 20, List.replicate 8 20, 45#32, by decide +kernel⟩⟩
theorem wit_PowerControl :
  (∃ (s : State) (d : Nat), Up s ∧ d < 4) ∧
  (∃ (s : State) (d : Nat) (n : Nat) (v : W32), Up s ∧ d < 4 ∧ n = BitVec.toNat v % 4096 ∧ (dieGet s d).droop = false) ∧
  (∃ (s : State) (d : Nat) (n : Nat) (v : W32), Up s ∧ d < 4 ∧ n = BitVec.toNat v % 4096 ∧ (dieGet s d).droop = true) ∧
  (∃ (s : State) (d : Nat) (n : Nat) (v : W32), Up s ∧ d < 4 ∧ n = BitVec.toNat v % 4096 ∧ fwUp s = true ∧ 500 ≤ n ∧ n ≤ 3300) ∧
  (∃ (s : State) (d : Nat) (n : Nat) (v : W32), Up s ∧ d < 4 ∧ n = BitVec.toNat v % 4096 ∧ fwUp s = true ∧ (n < 500 ∨ 3300 < n)) ∧
  (∃ (s : State) (d : Nat) (n : Nat) (v : W32), Up s ∧ d < 4 ∧ n = BitVec.toNat v % 4096 ∧ s.pwr.own ≠ 0 ∧ s.pwr.ptold = false) ∧
  (∃ (s : State) (d : Nat) (n : Nat) (v : W32), Up s ∧ d < 4 ∧ n = BitVec.toNat v % 4096 ∧ s.pwr.own = 0) ∧
  (∃ (s : State) (d : Nat) (n : Nat) (v : W32), Up s ∧ d < 4 ∧ n = BitVec.toNat v % 4096) ∧
  (∃ (s : State) (k : Nat) (h : Hint), Up s ∧ hintOf s k = some h ∧ BitVec.toNat h.start ≤ BitVec.toNat s.beat.now ∧ cutDue s = false) ∧
  (∃ (s : State) (k : Nat) (h : Hint), Up s ∧ hintOf s k = some h ∧ (BitVec.toNat s.beat.now < BitVec.toNat h.start ∨ cutDue s = true)) ∧
  (∃ (s : State) (k : Nat) (h : Hint), Up s ∧ hintOf s k = some h ∧ h.on = true ∧ BitVec.toNat h.start + h.len ≤ BitVec.toNat s.beat.now) ∧
  (∃ (s : State) (k : Nat) (h : Hint), Up s ∧ hintOf s k = some h ∧ (h.on = false ∨ BitVec.toNat s.beat.now < BitVec.toNat h.start + h.len)) ∧
  (∃ (s : State) (k : Nat) (h : Hint), Up s ∧ hintOf s k = some h ∧ 2 ≤ phaseCount (phaseGet s k) ∧ h.on = false) ∧
  (∃ (s : State) (k : Nat) (h : Hint), Up s ∧ hintOf s k = some h ∧ (phaseCount (phaseGet s k) < 2 ∨ h.on = true)) :=
  ⟨⟨hnt ⟨9, 50, 10, false, true, 0⟩ 49 (fun p => { p with phases := [(9, 0x02000000000F)] }), 0, by decide +kernel⟩,
   ⟨hnt ⟨9, 50, 10, false, true, 0⟩ 49 (fun p => { p with phases := [(9, 0x02000000000F)] }), 0, 0, default, by decide +kernel⟩,
   ⟨pws (fun x => { x with allowed := 500000, step := 12, droop := true }), 1, 500, 500#32, by decide +kernel⟩,
   ⟨{ up with pwr := { up.pwr with own := 3 } }, 1, 500, 500#32, by decide +kernel⟩,
   ⟨hnt ⟨9, 50, 10, false, true, 0⟩ 49 (fun p => { p with phases := [(9, 0x02000000000F)] }), 0, 0, default, by decide +kernel⟩,
   ⟨{ up with pwr := { up.pwr with own := 3 } }, 1, 500, 500#32, by decide +kernel⟩,
   ⟨hnt ⟨9, 50, 10, false, true, 0⟩ 49 (fun p => { p with phases := [(9, 0x02000000000F)] }), 0, 0, default, by decide +kernel⟩,
   ⟨hnt ⟨9, 50, 10, false, true, 0⟩ 49 (fun p => { p with phases := [(9, 0x02000000000F)] }), 0, 0, default, by decide +kernel⟩,
   ⟨hnt ⟨9, 50, 10, false, true, 0⟩ 50 id, 9, (⟨9, 50, 10, false, true, 0⟩ : Hint), by decide +kernel⟩,
   ⟨hnt ⟨9, 50, 10, false, true, 0⟩ 49 (fun p => { p with phases := [(9, 0x02000000000F)] }), 9, (⟨9, 50, 10, false, true, 0⟩ : Hint), by decide +kernel⟩,
   ⟨hnt ⟨9, 50, 10, true, true, 0⟩ 60 id, 9, (⟨9, 50, 10, true, true, 0⟩ : Hint), by decide +kernel⟩,
   ⟨hnt ⟨9, 50, 10, false, true, 0⟩ 49 (fun p => { p with phases := [(9, 0x02000000000F)] }), 9, (⟨9, 50, 10, false, true, 0⟩ : Hint), by decide +kernel⟩,
   ⟨hnt ⟨9, 50, 10, false, true, 0⟩ 49 (fun p => { p with phases := [(9, 0x02000000000F)] }), 9, (⟨9, 50, 10, false, true, 0⟩ : Hint), by decide +kernel⟩,
   ⟨leased { hnt ⟨9, 50, 10, false, true, 0⟩ 950 id with boot := up.boot }, 9, (⟨9, 50, 10, false, true, 0⟩ : Hint), by decide +kernel⟩⟩
theorem wit_ThermalControl :
  (∃ (s : State) (j : Nat), Idle s ∧ j < stacksOf s ∧ (s.boot.stage < 9 ∨ 13 < s.boot.stage)) ∧
  (∃ (s : State) (j : Nat), Idle s ∧ (dieGet s j).thrott = true ∧ j < 4) ∧
  (∃ (s : State) (j : Nat), Idle s ∧ (dieGet s j).thrott = false) ∧
  (∃ (s : State) (z : Nat) (k : Nat), Idle s ∧ fwUp s = true ∧ zoneOk s z = true ∧ k ∈ (zoneGet s z).list ∧ (zoneGet s z).broken.getLsbD k = true ∧
    1 < (zoneGet s z).list.length ∧ (zoneGet s z).spares ≠ 0) ∧
  (∃ (s : State) (z : Nat) (k : Nat), Idle s ∧ fwUp s = true ∧ (zoneGet s z).broken.getLsbD k = false) ∧
  (∃ (s : State) (z : Nat), Idle s ∧ zoneOk s z = true ∧ (zoneGet s z).spares ≠ 0 ∧ (zoneGet s z).active < (Zone.fitted z).active) ∧
  (∃ (s : State) (z : Nat), Idle s ∧ (zoneGet s z).spares = 0) :=
  ⟨⟨{ up with boot := { up.boot with stage := 8, sectOk := 0xFF } }, 3, by decide +kernel⟩,
   ⟨{ up with boot := { up.boot with stage := 14, sectOk := 0 }, pwr := { up.pwr with dies := [(3, { PwrDie.init with thrott := true })] } }, 3, by decide +kernel⟩,
   ⟨{ up with boot := { up.boot with stage := 8, sectOk := 0xFF } }, 3, by decide +kernel⟩,
   ⟨zs 1 (fun x => { x with broken := 4 }), 1, 2, by decide +kernel⟩,
   ⟨{ up with boot := { up.boot with stage := 8, sectOk := 0xFF } }, 1, 2, by decide +kernel⟩,
   ⟨zs 1 (fun x => { x with active := 2, list := [0, 1] }), 1, by decide +kernel⟩,
   ⟨zs 1 (fun x => { x with spares := 0 }), 1, by decide +kernel⟩⟩
theorem wit_SeedStock :
  (∃ (s : State) (e : Nat) (tl : Nat), Idle s ∧ tileOf s e = some tl ∧ underTest s e = false ∧ (engGet s e).owner = none) ∧
  (∃ (s : State) (e : Nat) (tl : Nat), Idle s ∧ tileOf s e = some tl ∧ (tileGet s tl).testing = true ∧ ∀ (i : Nat), i < 72 → (tileGet s i).checking
    ≠ some e) ∧
  (∃ (s : State) (e : Nat) (tl : Nat) (cols : List Nat), Idle s ∧ tileOf s e = some tl ∧ (tileGet s tl).testing = true ∧ (∀ (i : Nat), i < 72 →
    (tileGet s i).checking ≠ some e) ∧ oneColumn (tileGet s tl) cols false = true) ∧
  (∃ (s : State) (e : Nat) (tl : Nat) (sp : Nat) (r : List Nat), Idle s ∧ tileOf s e = some tl ∧ (tileGet s tl).testing = true ∧ (∀ (i : Nat), i <
    72 → (tileGet s i).checking ≠ some e) ∧ spareTiles (tilePut s tl
    { failed := (tileGet s tl).failed, colmap := (tileGet s tl).colmap, arrayOff := (tileGet s tl).arrayOff, worn := (tileGet s tl).worn, passes := (tileGet s tl).passes, onlyArray := false, testing := (tileGet s tl).testing, checking := (tileGet s tl).checking, rowsUsed := (tileGet s tl).rowsUsed, ueRows := (tileGet s tl).ueRows, hit := (tileGet s tl).hit })
    (e / 16) = sp :: r) ∧
  (∃ (s : State) (e : Nat) (tl : Nat) (sp : Nat), Idle s ∧ tileOf s e = some tl ∧ List.find? (fun (i : Nat) => (tileGet s i).checking == some e)
    (List.range 72) = some sp ∧ sp ≠ tl) ∧
  (∃ (s : State) (e : Nat) (tl : Nat) (bank : Nat), Idle s ∧ tileOf s e = some tl ∧ tl < 72 ∧ bank < 48 ∧ (tileGet s tl).failed = false ∧ (∀ (i :
    Nat), i < 64 → tileOf s i = some tl → (engGet s i).st = RunSt.stopped) ∧ tblGet (fun (x : Nat) => 0) (tileGet s tl).rowsUsed bank < 8) ∧
  (∃ (s : State) (e : Nat) (tl : Nat), Idle s ∧ tileOf s e = some tl ∧ s.inv.dirty = true ∧ s.flash.writing = none) :=
  ⟨⟨til id id, 18, 20, by decide +kernel⟩,
   ⟨til (fun x => { x with testing := true }) id, 18, 20, by decide +kernel⟩,
   ⟨til (fun x => { x with testing := true }) id, 18, 20, [7], by decide +kernel⟩,
   ⟨til (fun x => { x with testing := true }) id, 18, 20, 34, [35], by decide +kernel⟩,
   ⟨{ up with inv := { up.inv with tiles := [(34, { Tile.init with checking := some 18 })] } }, 18, 20, 34, by decide +kernel⟩,
   ⟨til id id, 18, 20, 47, by decide +kernel⟩,
   ⟨til id (fun i => { i with dirty := true }), 18, 20, by decide +kernel⟩⟩
theorem wit_BoardControl :
  (∃ (s : State), Up s ∧ s.board.resetN = true) ∧
  (∃ (s : State), s.board.resetN = false) ∧
  (∃ (s : State), s.board.resetN = false ∧ s.board.held = true ∧ s.board.aux = true ∧ s.board.pwrGood = 127 ∧ s.board.thermTrip = false ∧
    s.board.railOrder = false ∧ s.board.romWait = false ∧ s.thm.restart = false) ∧
  (∃ (s : State) (g : Nat), g < 7 ∧ s.board.pwrGood.getLsbD g = true ∧ s.board.resetN = true ∧ Up s) ∧
  (∃ (s : State) (g : Nat), g < 7 ∧ s.board.pwrGood.getLsbD g = false ∧ s.board.held = false) ∧
  (∃ (s : State), Up s ∧ s.board.thermTrip = false ∧ s.board.aux = true) ∧
  (∃ (s : State), s.board.aux = true ∧ s.board.held = true) ∧
  (∃ (s : State), s.board.aux = false) ∧
  (∃ (s : State), s.board.aux = true ∧ s.board.held = false) ∧
  (∃ (s : State), s.board.holdup = true ∧ s.board.held = true) ∧
  (∃ (s : State), s.board.holdup = true ∧ Up s) ∧
  (∃ (s : State) (mask : Nat), Idle s ∧ fwUp s = true ∧ BitVec.ofNat 12 mask &&& ~~~s.board.bypEn = 0 ∧ BitVec.ofNat 12 mask &&& s.board.bypMoving
    = 0 ∧ s.board.holdup = true ∧ ∀ (p : Nat), p < portsOf s → (portGet s p).st = PortSt.down) ∧
  (∃ (s : State) (mask : Nat) (c : Instr), Idle s ∧ fwUp s = true ∧ (BitVec.ofNat 12 mask &&& ~~~s.board.bypEn ≠ 0 ∨ BitVec.ofNat 12 mask &&&
    s.board.bypMoving ≠ 0 ∨ s.board.holdup = false) ∧ (c = Instr.bypassToBypass mask ∨ c = Instr.bypassToPass mask)) ∧
  (∃ (s : State), Idle s ∧ fwUp s = true ∧ s.board.bypState ||| s.board.bypMoving = 0) ∧
  (∃ (s : State) (v : W32), Idle s ∧ fwUp s = true ∧ s.board.bypEn = 4095 ∧ v = 0 ∧ s.board.bypState ≠ 0) ∧
  (∃ (s : State) (k : Nat), Idle s ∧ k < 12 ∧ s.board.bypMoving.getLsbD k = true ∧ s.board.bypThen.getLsbD k = false ∧ ∀ (p : Nat), ringsLocked s p
    = false) ∧
  (∃ (s : State) (k : Nat), Idle s ∧ s.board.bypMoving.getLsbD k = false) :=
  ⟨⟨up, by decide +kernel⟩,
   ⟨bds (fun b => { b with resetN := false, held := true }), by decide +kernel⟩,
   ⟨bds (fun b => { b with resetN := false, held := true }), by decide +kernel⟩,
   ⟨up, 0, by decide +kernel⟩,
   ⟨bds (fun b => { b with pwrGood := 0x77 }), 3, by decide +kernel⟩,
   ⟨up, by decide +kernel⟩,
   ⟨bds (fun b => { b with resetN := false, held := true }), by decide +kernel⟩,
   ⟨bds (fun b => { b with aux := false, held := true, coreUndef := false }), by decide +kernel⟩,
   ⟨up, by decide +kernel⟩,
   ⟨bds (fun b => { b with resetN := false, held := true }), by decide +kernel⟩,
   ⟨up, by decide +kernel⟩,
   ⟨up, 0, by decide +kernel⟩,
   ⟨bds (fun b => { b with bypEn := 0xFFF, bypMoving := 1, bypTarget := 1 }), 0x003, Instr.bypassToBypass 3, by decide +kernel⟩,
   ⟨up, by decide +kernel⟩,
   ⟨bds (fun b => { b with bypEn := 0xFFF, bypState := 1 }), 0#32, by decide +kernel⟩,
   ⟨bds (fun b => { b with bypEn := 0xFFF, bypMoving := 1, bypTarget := 1 }), 0, by (repeat' apply And.intro) <;> first | decide +kernel | rfl | (intro q; rfl)⟩,
   ⟨up, 0, by decide +kernel⟩⟩
theorem wit_BootAndBringup :
  (∃ (s : State), Up s ∧ s.boot.stage = 1 ∧ s.board.romWait = false) ∧
  (∃ (s : State), Up s ∧ s.boot.stage = 1 ∧ s.board.fref = false) ∧
  (∃ (s : State) (temps : List Int), Up s ∧ s.boot.stage = 1 ∧ s.board.romWait = true ∧ s.board.fref = true ∧ ∀ (y : Int), y ∈ temps → 0 ≤ y) ∧
  (∃ (s : State) (temps : List Int), Up s ∧ s.boot.stage = 1 ∧ s.board.romWait = true ∧ ∃ (y : Int), y ∈ temps ∧ y < 0) ∧
  (∃ (s : State) (v : W32), Up s ∧ s.boot.stage = 2 ∧ BitVec.getLsbD v 0 = true) ∧
  (∃ (s : State), Up s ∧ s.boot.stage ≠ 2) ∧
  (∃ (s : State) (e : Nat), Up s ∧ s.boot.stage = 3 ∧ e = imageError s.boot.len.toNat (bootBytes s s.boot.len.toNat)) ∧
  (∃ (s : State), Up s ∧ Idle s ∧ s.boot.stage = 12 ∧ s.mgt.acked = true) ∧
  (∃ (s : State), Up s ∧ Idle s ∧ s.boot.stage = 12 ∧ s.mgt.acked = false) ∧
  (∃ (s : State), Up s ∧ Idle s ∧ (s.boot.stage = 10 ∨ s.boot.stage = 11)) ∧
  (∃ (s : State), Up s ∧ Idle s ∧ s.boot.stage = 9) ∧
  (∃ (s : State), Up s ∧ s.boot.stage = 13 ∧ Idle s) :=
  ⟨⟨bts 1 id (fun b => { b with fref := false }), by decide +kernel⟩,
   ⟨bts 1 id (fun b => { b with fref := false }), by decide +kernel⟩,
   ⟨bts 1 id (fun b => { b with romWait := true }), [(0 : Int), 5], by decide +kernel⟩,
   ⟨bts 1 id (fun b => { b with romWait := true }), [(-1 : Int), 5], by decide +kernel⟩,
   ⟨bts 2 id id, 1#32, by decide +kernel⟩,
   ⟨bts 1 id (fun b => { b with fref := false }), by decide +kernel⟩,
   ⟨bts 3 id id, 1, by decide +kernel⟩,
   ⟨{ bts 12 id id with mgt := { up.mgt with acked := true } }, by decide +kernel⟩,
   ⟨bts 12 id id, by decide +kernel⟩,
   ⟨bts 10 id id, by decide +kernel⟩,
   ⟨bts 9 id id, by decide +kernel⟩,
   ⟨bts 13 id id, by decide +kernel⟩⟩
theorem wit_BarAccess :
  (∃ (s : State) (v : W32), FwRuns s ∧ BitVec.getLsbD v 0 = true) ∧
  (∃ (s : State) (v : W32), FwRuns s ∧ BitVec.getLsbD v 0 = false) ∧
  (∃ (s : State) (off : Nat) (n : Nat), FwRuns s ∧ 1 ≤ n ∧ off % 8 + n ≤ 8 ∧ off + n ≤ 33554432) ∧
  (∃ (s : State) (off : Nat) (n : Nat), FwRuns s ∧ 8 < off % 8 + n) ∧
  (∃ (s : State), FwRuns s ∧ Idle s) ∧
  (∃ (s : State) (off : Nat) (bytes : List Byte), FwRuns s ∧ Idle s ∧ off < 33554432 ∧ off % 4 = 0 ∧ bytes.length = 4 ∧ is64 s (off / 8 * 8) = true) ∧
  (∃ (s : State) (off : Nat) (bytes : List Byte) (en : Bool), FwRuns s ∧ Idle s ∧ off < 33554432 ∧ (en = false ∨ ¬(bytes.length = 4 ∧ off % 4 = 0 ∨
    bytes.length = 8 ∧ off % 8 = 0))) ∧
  (∃ (s : State) (off : Nat) (bytes : List Byte), FwRuns s ∧ off < 33554432 ∧ off % 8 = 0 ∧ is64 s off = false ∧ bytes.length = 8) ∧
  (∃ (s : State) (off : Nat) (bytes : List Byte), FwRuns s ∧ off < 33554432 ∧ off % 4 = 0 ∧ is64 s (off / 8 * 8) = false ∧ bytes.length = 4) ∧
  (∃ (s : State) (bytes : List Byte) (a : Nat), FwRuns s ∧ s.hif.locked = true ∧ a ∈ [4096, 4108, 458752, 458760, 458764, 458768, 917536, 983040,
    4259840, 4259868] ∧ bytes.length = 4) ∧
  (∃ (s : State) (bytes : List Byte) (a : Nat), FwRuns s ∧ s.hif.locked = true ∧ a ∈ [4112, 4120, 4128, 4136, 589928] ∧ bytes.length = 8) ∧
  (∃ (s : State) (bytes : List Byte) (path : RegPath) (a : Nat), FwRuns s ∧ path ≠ RegPath.mgmt ∧ a ∈ [786432, 786464, 851984, 852008, 852024,
    856064, 856068] ∧ bytes.length = 4) ∧
  (∃ (s : State) (bytes : List Byte) (path : RegPath) (a : Nat), FwRuns s ∧ path ≠ RegPath.mgmt ∧ a ∈ [851976, 852000, 856072, 856080, 856128] ∧
    bytes.length = 8) ∧
  (∃ (s : State) (off : Nat) (n : Nat), Idle s ∧ fwUp s = true ∧ 0 < n ∧ off + n ≤ 2 ^ 36 ∧ decodeAddr s (BitVec.toNat s.hif.bar2Base + off) =
    Place2.hbm ∧ hbmOk s (BitVec.toNat s.hif.bar2Base + off) n = true ∧ readFails s (BitVec.toNat s.hif.bar2Base + off) n = false) ∧
  (∃ (s : State) (off : Nat) (n : Nat), Idle s ∧ fwUp s = true ∧ 0 < n ∧ off + n ≤ 2 ^ 36 ∧ decodeAddr s (BitVec.toNat s.hif.bar2Base + off) =
    Place2.nothing) ∧
  (∃ (s : State), Idle s) ∧
  (∃ (s : State) (off : Nat) (n : Nat), Idle s ∧ fwUp s = true ∧ off + n ≤ 4096) ∧
  (∃ (s : State) (off : Nat) (n : Nat), Idle s ∧ fwUp s = true ∧ 4096 ≤ off ∧ 0 < n ∧ (off < 32768 ∨ 32800 < off + n)) ∧
  (∃ (s : State) (off : Nat) (bytes : List Byte), Idle s ∧ fwUp s = true ∧ bytes ≠ [] ∧ off + bytes.length ≤ 2 ^ 36 ∧ decodeAddr s (BitVec.toNat
    s.hif.bar2Base + off) = Place2.hbm ∧ hbmOk s (BitVec.toNat s.hif.bar2Base + off) bytes.length = true ∧ Sound s) ∧
  (∃ (s : State) (off : Nat) (bytes : List Byte), Idle s ∧ fwUp s = false ∧ s.boot.stage ≠ 3 ∧ off + bytes.length ≤ 8388608) :=
  ⟨⟨lk (mg id 13), 3#32, by decide +kernel⟩,
   ⟨up, 2#32, by decide +kernel⟩,
   ⟨lk (mg id 13), 0x1014, 4, by decide +kernel⟩,
   ⟨up, 0x1001, 8, by decide +kernel⟩,
   ⟨up, by decide +kernel⟩,
   ⟨lk (mg id 13), 0x1014, ([1,3,5,7] : List Byte), by decide +kernel⟩,
   ⟨lk (mg id 13), 0x1014, ([1,3,5,7] : List Byte), false, by decide +kernel⟩,
   ⟨up, 0xE0000, ([1,0,0,0,5,0,0,0] : List Byte), by decide +kernel⟩,
   ⟨up, 0x1000, ([1,0,0,0] : List Byte), by decide +kernel⟩,
   ⟨lk (mg id 13), ([1,3,5,7] : List Byte), 0x1000, by decide +kernel⟩,
   ⟨lk (mg id 13), ([1,2,3,4,5,0,0,0] : List Byte), 0x1010, by decide +kernel⟩,
   ⟨lk (mg id 13), ([1,3,5,7] : List Byte), RegPath.host, 0xC0000, by decide +kernel⟩,
   ⟨lk (mg id 13), ([1,2,3,4,5,0,0,0] : List Byte), RegPath.host, 0xD0008, by decide +kernel⟩,
   ⟨lk (mg id 13), 0x1014, 4, by decide +kernel⟩,
   ⟨{ up with hif := { up.hif with bar2Base := BitVec.ofNat 64 (2^39) } }, 0x100, 4, by decide +kernel⟩,
   ⟨lk (mg id 13), by decide +kernel⟩,
   ⟨up, 0x100, 4, by decide +kernel⟩,
   ⟨lk (mg id 13), 0x1014, 4, by decide +kernel⟩,
   ⟨lk (mg id 13), 0x1014, ([1,3,5,7] : List Byte), by decide +kernel⟩,
   ⟨{ up with boot := { up.boot with stage := 2, buf := [(0xFF, 3), (0x103, 4)] } }, 0x100, default, by decide +kernel⟩⟩
theorem wit_ManagementPort :
  (∃ (s : State) (q : MgmtMsg), Idle s ∧ FwRuns s ∧ s.board.aux = true ∧ mgmtAllowed s q = true ∧ q.ver = 1 ∧ BitVec.toNat q.len = q.payload.length
    ∧ q.type = 1 ∧ q.payload.length = 12 ∧ mgOk q = true ∧ mgAddr q % 4 = 0) ∧
  (∃ (s : State) (q : MgmtMsg), Idle s ∧ FwRuns s ∧ s.board.aux = true ∧ mgmtAllowed s q = true ∧ q.ver = 1 ∧ BitVec.toNat q.len = q.payload.length
    ∧ q.type = 2 ∧ q.payload.length = 16 ∧ mgCount q = 1 ∧ mgAddr q = 856064) ∧
  (∃ (s : State) (q : MgmtMsg), Idle s ∧ FwRuns s ∧ s.board.aux = true ∧ mgmtAllowed s q = true ∧ q.ver = 1 ∧ BitVec.toNat q.len = q.payload.length
    ∧ q.type = 3 ∧ q.payload.length = 64 ∧ dOp q.payload = 64 ∧ (setupCheck s { QTab.zero with privF := true } q.payload).form = true ∧ (setupCheck
    s { QTab.zero with privF := true } q.payload).codes = []) ∧
  (∃ (s : State) (q : MgmtMsg) (hv : HostView) (c : Instr), Idle s ∧ FwRuns s ∧ s.board.aux = true ∧ mgmtAllowed s q = false ∧ (c = Instr.regRead q
    ∧ q.type = 1 ∨ c = Instr.regWrite q hv ∧ q.type = 2 ∨ c = Instr.descExec q ∧ q.type = 3)) ∧
  (∃ (s : State), Idle s ∧ FwRuns s ∧ s.board.aux = true ∧ s.boot.stage = 12 ∧ s.mgt.acked = false) ∧
  (∃ (s : State), Idle s ∧ FwRuns s ∧ s.board.aux = true ∧ s.mgt.acked = true ∧ s.mgt.flags = regFlags s) ∧
  (∃ (s : State), Idle s ∧ FwRuns s ∧ s.board.aux = true ∧ s.boot.stage = 12) ∧
  (∃ (s : State), Idle s ∧ FwRuns s ∧ s.board.aux = true ∧ s.boot.stage ≠ 12) ∧
  (∃ (s : State), Idle s ∧ FwRuns s ∧ s.board.aux = true ∧ s.mgt.acked = true ∧ List.map (fun (x : FaultRec × Bool) => x.fst) (List.take 16
    (List.filter (fun (x : FaultRec × Bool) => !x.snd) s.mgt.queue)) ≠ []) ∧
  (∃ (s : State), Idle s ∧ FwRuns s ∧ s.board.aux = true ∧ s.mgt.acked = true ∧ List.map (fun (x : FaultRec × Bool) => x.fst) (List.filter (fun (x
    : FaultRec × Bool) => x.snd) s.mgt.queue) ≠ [] ∧ (List.map (fun (x : FaultRec × Bool) => x.fst) (List.filter (fun (x : FaultRec × Bool) =>
    x.snd) s.mgt.queue)).length < 16) ∧
  (∃ (s : State) (n : W32), Idle s ∧ FwRuns s ∧ s.board.aux = true ∧ fseqCovers s.fr.fseq n = false ∧ ∀ (x : FaultRec × Bool), x ∈ s.mgt.queue →
    x.snd = false → fseqCovers x.fst.fseq n = false) ∧
  (∃ (s : State), Idle s ∧ FwRuns s ∧ s.board.aux = true ∧ BitVec.toNat s.beat.now % 64 = 0) ∧
  (∃ (s : State), Idle s ∧ FwRuns s ∧ s.board.aux = true ∧ BitVec.toNat s.beat.now % 64 ≠ 0) :=
  ⟨⟨mg id 12, rq0 1 (leBytes 8 0x10000 ++ leBytes 4 2) none, by decide +kernel⟩,
   ⟨mg id 12, rq0 2 (leBytes 8 0xD1000 ++ leBytes 4 1 ++ leBytes 4 0x01020304) none, by decide +kernel⟩,
   ⟨(let s := uPorts (ck 2 0 0 0 0 (que dSet)); { s with board := { s.board with aux := true } }), rq0 3 dSet none, by decide +kernel⟩,
   ⟨mg (fun m => { m with allow := [(0, 0xFFFFFFFF00000008)] }) 13, rq0 1 (leBytes 8 0x10000 ++ leBytes 4 2) (some 9), view 0 [] .none,
    Instr.regRead (rq0 1 (leBytes 8 0x10000 ++ leBytes 4 2) (some 9)), by decide +kernel⟩,
   ⟨mg id 12, by decide +kernel⟩,
   ⟨mg (fun m => { m with acked := true }) 13, by decide +kernel⟩,
   ⟨mg id 12, by decide +kernel⟩,
   ⟨mg (fun m => { m with allow := [(0, 0xFFFFFFFF00000008)] }) 13, by decide +kernel⟩,
   ⟨mg (fun m => { m with allow := [(0, 0xFFFFFFFF00000008)], acked := true, queue := [(fr0 4, true), (fr0 6, true), (fr0 7, false)] }) 13, by decide +kernel⟩,
   ⟨mg (fun m => { m with allow := [(0, 0xFFFFFFFF00000008)], acked := true, queue := [(fr0 4, true), (fr0 6, true), (fr0 7, false)] }) 13, by decide +kernel⟩,
   ⟨{ mg (fun m => { m with acked := true, queue := [(fr0 4, true), (fr0 6, true), (fr0 7, false)] }) 13 with fr := { up.fr with fseq := 8 } }, 5#32, by decide +kernel⟩,
   ⟨mg id 12, by decide +kernel⟩,
   ⟨(let s := uPorts (ck 2 0 0 0 0 (que dSet)); { s with board := { s.board with aux := true } }), by decide +kernel⟩⟩
theorem wit_AttestationAnswers :
  (∃ (s : State) (q : MgmtMsg), FwRuns s ∧ s.board.aux = true ∧ 4 ≤ q.payload.length ∧ q.type = 64 ∧ q.ver = 1 ∧ BitVec.toNat q.len =
    q.payload.length ∧ mgmtAllowed s q = true ∧ rqCode q.payload = 132 ∧ rqByte q.payload 0 = 16) ∧
  (∃ (s : State) (q : MgmtMsg) (c : Instr), FwRuns s ∧ s.board.aux = true ∧ 4 ≤ q.payload.length ∧ q.type = 64 ∧ q.ver = 1 ∧ BitVec.toNat q.len =
    q.payload.length ∧ mgmtAllowed s q = true ∧ (c = Instr.getCapabilities q ∧ rqCode q.payload = 225 ∨ c = Instr.negotiateAlgorithms q ∧ rqCode
    q.payload = 227 ∨ c = Instr.getDigests q ∧ rqCode q.payload = 129 ∨ c = Instr.getCertificate q ∧ rqCode q.payload = 130 ∨ c = Instr.challenge q
    ∧ rqCode q.payload = 131 ∨ c = Instr.getMeasurements q ∧ rqCode q.payload = 224) ∧ s.spdm =
    { version := false, caps := false, algs := false, trans := [], chal := [], meas := [] }) ∧
  (∃ (s : State) (q : MgmtMsg), FwRuns s ∧ s.board.aux = true ∧ 4 ≤ q.payload.length ∧ q.type = 64 ∧ q.ver = 1 ∧ BitVec.toNat q.len =
    q.payload.length ∧ mgmtAllowed s q = true ∧ s.spdm.version = true ∧ rqByte q.payload 0 = 19 ∧ rqCode q.payload = 225 ∧ q.payload.length = 20) ∧
  (∃ (s : State) (q : MgmtMsg), FwRuns s ∧ s.board.aux = true ∧ 4 ≤ q.payload.length ∧ q.type = 64 ∧ q.ver = 1 ∧ BitVec.toNat q.len =
    q.payload.length ∧ mgmtAllowed s q = true ∧ s.spdm.version = true ∧ rqByte q.payload 0 = 19 ∧ rqCode q.payload = 227 ∧ s.spdm.caps = true ∧ 32 ≤
    q.payload.length ∧ leAt q.payload 4 2 = q.payload.length) ∧
  (∃ (s : State) (q : MgmtMsg), FwRuns s ∧ s.board.aux = true ∧ 4 ≤ q.payload.length ∧ q.type = 64 ∧ q.ver = 1 ∧ BitVec.toNat q.len =
    q.payload.length ∧ mgmtAllowed s q = true ∧ s.spdm.version = true ∧ rqByte q.payload 0 = 19 ∧ s.spdm.algs = true ∧ rqCode q.payload = 129) ∧
  (∃ (s : State) (q : MgmtMsg), FwRuns s ∧ s.board.aux = true ∧ 4 ≤ q.payload.length ∧ q.type = 64 ∧ q.ver = 1 ∧ BitVec.toNat q.len =
    q.payload.length ∧ mgmtAllowed s q = true ∧ s.spdm.version = true ∧ rqByte q.payload 0 = 19 ∧ s.spdm.algs = true ∧ rqCode q.payload = 130) ∧
  (∃ (s : State) (q : MgmtMsg), FwRuns s ∧ s.board.aux = true ∧ 4 ≤ q.payload.length ∧ q.type = 64 ∧ q.ver = 1 ∧ BitVec.toNat q.len =
    q.payload.length ∧ mgmtAllowed s q = true ∧ s.spdm.version = true ∧ rqByte q.payload 0 = 19 ∧ s.spdm.algs = true ∧ rqCode q.payload = 131 ∧
    q.payload.length = 44 ∧ rqByte q.payload 2 = 0 ∧ rqByte q.payload 3 = 0) ∧
  (∃ (s : State) (q : MgmtMsg), FwRuns s ∧ s.board.aux = true ∧ 4 ≤ q.payload.length ∧ q.type = 64 ∧ q.ver = 1 ∧ BitVec.toNat q.len =
    q.payload.length ∧ mgmtAllowed s q = true ∧ s.spdm.version = true ∧ rqByte q.payload 0 = 19 ∧ s.spdm.algs = true ∧ rqCode q.payload = 224 ∧
    q.payload.length = 12 ∧ rqByte q.payload 2 = 0 ∧ rqByte q.payload 3 = 0) ∧
  (∃ (s : State) (q : MgmtMsg), FwRuns s ∧ s.board.aux = true ∧ 4 ≤ q.payload.length ∧ q.type = 64 ∧ q.ver = 1 ∧ BitVec.toNat q.len =
    q.payload.length ∧ mgmtAllowed s q = true ∧ ¬rqCode q.payload ∈ rqKnown) ∧
  (∃ (s : State) (q : MgmtMsg) (c : Instr), FwRuns s ∧ s.board.aux = true ∧ 4 ≤ q.payload.length ∧ q.type = 64 ∧ q.ver = 1 ∧ BitVec.toNat q.len =
    q.payload.length ∧ mgmtAllowed s q = false ∧ (c = Instr.getVersion q ∨ c = Instr.getCapabilities q ∨ c = Instr.negotiateAlgorithms q ∨ c =
    Instr.getDigests q ∨ c = Instr.getCertificate q ∨ c = Instr.challenge q ∨ c = Instr.getMeasurements q ∨ c = Instr.spdmUnsupported q)) :=
  ⟨⟨at1 id true, sq (rq2 0x10 0x84 4), by decide +kernel⟩,
   ⟨at1 id true, sq (rq2 0x10 0xE1 4), Instr.getCapabilities (sq (rq2 0x10 0xE1 4)), by decide +kernel⟩,
   ⟨at1 spA true, sq (rq2 0x13 0xE1 20), by decide +kernel⟩,
   ⟨at1 spA true, sq ([0x13, 0xE3, 0, 0, 32, 0] ++ List.replicate 26 0), by decide +kernel⟩,
   ⟨at1 spA true, sq (rq2 0x13 0x81 4), by decide +kernel⟩,
   ⟨at1 spA true, sq (rq2 0x13 0x82 8), by decide +kernel⟩,
   ⟨at1 spA true, sq (rq2 0x13 0x83 44), by decide +kernel⟩,
   ⟨at1 spA true, sq (rq2 0x13 0xE0 12), by decide +kernel⟩,
   ⟨at1 id true, sq (rq2 0x13 0x99 4), by decide +kernel⟩,
   ⟨shutS, rq0 0x40 (rq2 0x10 0x84 4) (some 5#32), Instr.getVersion (rq0 0x40 (rq2 0x10 0x84 4) (some 5#32)), by decide +kernel⟩⟩
theorem wit_DebugPort :
  (∃ (s : State) (e : Nat) (k : Nat), Idle s ∧ s.board.aux = true ∧ e < 64 ∧ k < 8 ∧ s.dbg.check = none ∧ s.dbg.lockout = false) ∧
  (∃ (s : State) (e : Nat) (k : Nat), Idle s ∧ s.board.aux = true ∧ e < 64 ∧ k < 8 ∧ s.dbg.check = none ∧ s.dbg.lockout = true) ∧
  (∃ (s : State) (e : Nat) (k : Nat) (l : BitVec 2), Idle s ∧ s.board.aux = true ∧ e < 64 ∧ k < 8 ∧ s.dbg.check = some (some l)) ∧
  (∃ (s : State) (e : Nat) (k : Nat), Idle s ∧ s.board.aux = true ∧ e < 64 ∧ k < 8 ∧ s.dbg.check = some none) ∧
  (∃ (s : State) (e : Nat) (k : Nat), Idle s ∧ s.board.aux = true ∧ e < 64 ∧ k < 8 ∧ s.dbg.check = none) ∧
  (∃ (s : State) (e : Nat) (k : Nat), Idle s ∧ s.board.aux = true ∧ e < 64 ∧ k < 8) ∧
  (∃ (s : State) (e : Nat) (k : Nat) (off : Nat), Idle s ∧ s.board.aux = true ∧ e < 64 ∧ k < 8 ∧ off % 8 = 0 ∧ off < 7928) ∧
  (∃ (s : State) (e : Nat) (k : Nat) (v : W64) (hv : HostView) (c : Instr), Idle s ∧ s.board.aux = true ∧ e < 64 ∧ k < 8 ∧ s.dbg.level = 0 ∧ (c =
    Instr.relock ∨ c = Instr.holdSet ∨ c = Instr.holdClr ∨ c = Instr.halt e ∨ c = Instr.resume e ∨ c = Instr.stepOne e ∨ c = Instr.dbgRead
    (BitVec.ofNat 64 (2 ^ 63 + 65544 + 256 * e)) ∨ c = Instr.dbgWrite (BitVec.ofNat 64 (2 ^ 63 + 65552 + 256 * e)) v hv)) ∧
  (∃ (s : State) (e : Nat) (k : Nat), Idle s ∧ s.board.aux = true ∧ e < 64 ∧ k < 8 ∧ 1 ≤ s.dbg.level.toNat) ∧
  (∃ (s : State) (e : Nat) (k : Nat), Idle s ∧ s.board.aux = true ∧ e < 64 ∧ k < 8 ∧ 1 ≤ s.dbg.level.toNat ∧ present s e = true) ∧
  (∃ (s : State) (e : Nat) (k : Nat), Idle s ∧ s.board.aux = true ∧ e < 64 ∧ k < 8 ∧ 2 ≤ s.dbg.level.toNat ∧ s.dbg.hold = false) ∧
  (∃ (s : State) (e : Nat) (k : Nat), Idle s ∧ s.board.aux = true ∧ e < 64 ∧ k < 8 ∧ 2 ≤ s.dbg.level.toNat ∧ s.dbg.hold = true) ∧
  (∃ (s : State) (e : Nat) (k : Nat), Idle s ∧ s.board.aux = true ∧ e < 64 ∧ k < 8 ∧ 2 ≤ s.dbg.level.toNat) ∧
  (∃ (s : State) (e : Nat) (k : Nat), Idle s ∧ s.board.aux = true ∧ e < 64 ∧ k < 8 ∧ 2 ≤ s.dbg.level.toNat ∧ present s e = true ∧ (engGet s e).st =
    RunSt.running) ∧
  (∃ (s : State) (e : Nat) (k : Nat), Idle s ∧ s.board.aux = true ∧ e < 64 ∧ k < 8 ∧ 2 ≤ s.dbg.level.toNat ∧ present s e = true ∧ (engGet s e).st =
    RunSt.halted ∧ (engGet s e).exc = none ∧ (engGet s e).ending = false) ∧
  (∃ (s : State) (e : Nat) (k : Nat) (u : State), Idle s ∧ s.board.aux = true ∧ e < 64 ∧ k < 8 ∧ u.board.coreUndef = false ∧ u.board.aux = true ∧
    u.board.resetN = false ∧ u.dbg.level = 3) :=
  ⟨⟨db id id, 3, 7, by decide +kernel⟩,
   ⟨db (fun d => { d with lockout := true }) id, 3, 7, by decide +kernel⟩,
   ⟨db (fun d => { d with check := some (some 2), hold := true }) id, 3, 7, 2#2, by decide +kernel⟩,
   ⟨db (fun d => { d with check := some none, fails := 7 }) id, 3, 7, by decide +kernel⟩,
   ⟨db id id, 3, 7, by decide +kernel⟩,
   ⟨db id id, 3, 7, by decide +kernel⟩,
   ⟨db id id, 3, 7, 7920, by decide +kernel⟩,
   ⟨db id id, 3, 7, 0xFFFFFFFFFFFFFFFF#64, view 0 [] .none, Instr.relock, by decide +kernel⟩,
   ⟨db (fun d => { d with level := 1 }) id, 3, 7, by decide +kernel⟩,
   ⟨db (fun d => { d with level := 1 }) id, 3, 7, by decide +kernel⟩,
   ⟨db (fun d => { d with level := 2 }) (fun g => { g with st := .halted, cause := 3 }), 3, 7, by decide +kernel⟩,
   ⟨db (fun d => { d with level := 2, hold := true }) id, 3, 7, by decide +kernel⟩,
   ⟨db (fun d => { d with level := 2, hold := true }) id, 3, 7, by decide +kernel⟩,
   ⟨db (fun d => { d with level := 2, hold := true }) id, 3, 7, by decide +kernel⟩,
   ⟨db (fun d => { d with level := 2 }) (fun g => { g with st := .halted, cause := 3 }), 3, 7, by decide +kernel⟩,
   ⟨db id id, 3, 7, dbu, by decide +kernel⟩⟩
theorem wit_StepRunsFront :
  ∃ (s : State), s.pending = [] :=
  ⟨up, by decide +kernel⟩
theorem wit_CoreDomainStops :
  (∃ (s : State) (c : Instr), boardRow c = false ∧ s.board.coreUndef = true) ∧
  (∃ (s : State) (c : Instr), boardRow c = false ∧ s.board.coreUndef = false ∧ s.board.held = true ∧ auxRow c = false) :=
  ⟨⟨{ State.reset with board := { Board.init with coreUndef := true } }, Instr.nop 0, by decide +kernel⟩,
   ⟨State.reset, Instr.nop 0, by decide +kernel⟩⟩

end Sys2Proof.Tests
end

/-!
What a command of the control core answers: it goes on, jumps, waits, or raises an exception that stops its tiller (R78, R123 to R128, R153).
-/

namespace Sys2Proof.Machine

/-! A tiller that dispatches, and what an exception makes of it. -/

/-- A tiller at an instruction that nothing holds up, started by no descriptor: an exception is the first of its run and only concerns itself. -/
structure Undisturbed (g : Engine) : Prop where
  st : g.st = .running
  exc : g.exc = none
  ending : g.ending = false
  single : g.single = false
  bar : g.bar = none
  owner : g.owner = none

/-- Tiller `g` once the exception `x` has been raised (R78): what waits is discarded, and it is FAULTED once nothing is left executing. -/
def faultedBy (g : Engine) (x : Exc) : Engine :=
  { g with qmm := [], qvx := [], qmv := [], qsf := [], incs := incsKept g, st := if g.exec = [] then .faulted else .running, exc := some x }

theorem undisturbed_of_atWord {s : State} {e op : Nat} (h : AtWord s e op) (ho : (engGet s e).owner = none) : Undisturbed (engGet s e) := by
  obtain ⟨hc, _, hb, _, _, _, hs⟩ := h
  obtain ⟨_, hst, hend, _, hx⟩ := (canDispatch_iff s e).1 hc
  exact ⟨hst, hx, hend, hs, hb, ho⟩

theorem undisturbed_of_readyBranch {s : State} {e op : Nat} (h : ReadyBranch s e op) (ho : (engGet s e).owner = none) :
    Undisturbed (engGet s e) := by
  obtain ⟨_, _, hc, _, hb, _, _, hs⟩ := h
  obtain ⟨_, hst, hend, _, hx⟩ := (canDispatch_iff s e).1 hc
  exact ⟨hst, hx, hend, hs, hb, ho⟩

/-- Discarding queued instructions one after another leaves the increments that wait for none of them. -/
theorem foldl_unwritten (l : List QInstr) (g : Engine) :
    l.foldl (fun g q => g.unwritten q.ord) g = { g with incs := g.incs.filter (fun i => l.all (fun q => decide (i.ord ≤ q.ord))) } := by
  induction l generalizing g with
  | nil =>
    have h : g.incs.filter (fun _ => true) = g.incs := List.filter_eq_self.2 (fun _ _ => rfl)
    simp only [List.foldl_nil, List.all_nil, h]
  | cons q r ih =>
    rw [List.foldl_cons, ih]
    simp [Engine.unwritten, List.filter_filter, Bool.and_comm]

/-- The discard of R78, with `incsKept` for the increments that stay. -/
theorem discard_eq (g : Engine) : g.discard = { g with qmm := [], qvx := [], qmv := [], qsf := [], incs := incsKept g, bar := none } := by
  simp only [Engine.discard, foldl_unwritten, incsKept]

/-! Telling of an event leaves the tillers, the memory and the host interface. -/

theorem told_engines {s t : State} (h : Told s t) : t.engines = s.engines := by rw [h]
theorem told_mem {s t : State} (h : Told s t) : t.mem = s.mem := by rw [h]
theorem told_hif {s t : State} (h : Told s t) : t.hif = s.hif := by rw [h]

theorem told_excRecord (s : State) (e : Nat) (x : Exc) : Told s (excRecord s e x) := told_record s _ _ _ _ _ _

@[simp] theorem excRecord_engines (s : State) (e : Nat) (x : Exc) : (excRecord s e x).engines = s.engines := told_engines (told_excRecord s e x)
@[simp] theorem excRecord_mem (s : State) (e : Nat) (x : Exc) : (excRecord s e x).mem = s.mem := told_mem (told_excRecord s e x)
@[simp] theorem excRecord_hif (s : State) (e : Nat) (x : Exc) : (excRecord s e x).hif = s.hif := told_hif (told_excRecord s e x)
@[simp] theorem engGet_excRecord (s : State) (e k : Nat) (x : Exc) : engGet (excRecord s e x) k = engGet s k := by
  simp [engGet]

/-- No descriptor hears of a tiller that none started. -/
theorem engLeave_none (s : State) (e : Nat) (st : Byte) (f : Bool) (b : W64) (h : (engGet s e).owner = none) : engLeave s e st f b = s := by
  simp [engLeave, h]

/-- An exception of a tiller that dispatches (R78): its record, and the tiller stopped. -/
theorem raiseExc_undisturbed (s : State) (e : Nat) (x : Exc) (h : Undisturbed (engGet s e)) :
    raiseExc s e x = engPut (excRecord s e x) e (faultedBy (engGet s e) x) := by
  obtain ⟨hst, hx, hend, hs, hb, ho⟩ := h
  by_cases he : (engGet s e).exec = []
  · simp [raiseExc, engSettle, faultedBy, discard_eq, engLeave_none, hst, hx, hend, hs, hb, ho, he]
  · simp [raiseExc, engSettle, faultedBy, discard_eq, hst, hx, hend, hb, he]

/-! What a tiller at an instruction meets. -/

theorem ready_encoding {s : State} {e op : Nat} (h : Ready s e op) : encodingGood (engGet s e).word noMore = true := by
  obtain ⟨_, _, _, _, _, _, hm, _⟩ := h
  exact hm

theorem ready_wOp {s : State} {e op : Nat} (h : Ready s e op) : wOp (engGet s e).word = op := by
  obtain ⟨_, _, _, ho, _⟩ := h
  exact ho

theorem ready_bar {s : State} {e op : Nat} (h : Ready s e op) : (engGet s e).bar = none := by
  obtain ⟨_, _, _, _, hb, _⟩ := h
  exact hb

/-- A good encoding that also meets a rule of its opcode. -/
theorem encodingGood_and {w : IWord} {more : IWord → Bool} (h : encodingGood w noMore = true) (hm : more w = true) :
    encodingGood w more = true := by
  unfold encodingGood at h ⊢
  split at h
  · rw [Bool.and_eq_true] at h ⊢
    exact ⟨h.1, hm⟩
  · cases h

/-! What a dispatch answers. -/

theorem noneDue_of_hif {s t : State} (ht : t.hif = s.hif) (h : NoneDue s) : NoneDue t := by
  unfold NoneDue
  rw [ht]
  exact h

/-- A command of a tiller that leaves the host interface as it is answers its effect: no descriptor is due. -/
theorem onEngine_of_hif {f : State → Nat → State} {s t : State} {e : Nat} (hu : Up s) (hn : NoneDue s) (hf : f s e = t) (ht : t.hif = s.hif) :
    onEngine f e s = .next t := by
  unfold onEngine
  rw [run_up s _ hu, hf, settle_id t (noneDue_of_hif ht hn)]

section
variable {op : Nat} {more : IWord → Bool} {feet : State → Nat → IWord → List Foot × List Foot} {f : State → Nat → IWord → Ctl} {s t : State}
  {e : Nat}

/-- A dispatched instruction that waits leaves what its attempt leaves. -/
theorem onEngine_stall (h : Ready s e op) (hm : encodingGood (engGet s e).word more = true) (hw : NoWatch s e (feet s e (engGet s e).word))
    (hf : f s e (engGet s e).word = .stall t) (ht : t.hif = s.hif) : onEngine (dispatch op more feet f) e s = .next t := by
  obtain ⟨hu, hn, ha⟩ := h
  refine onEngine_of_hif hu hn ?_ ht
  rw [dispatch_at op more feet f s e ha hm hw, hf]
  rfl

/-- A dispatched instruction that goes on, where more than its tiller may have changed. -/
theorem onEngine_go_put {x : Engine} (h : Ready s e op) (hm : encodingGood (engGet s e).word more = true)
    (hw : NoWatch s e (feet s e (engGet s e).word)) (hf : f s e (engGet s e).word = .go (engPut t e x)) (hx : Calm (engGet s e) x)
    (ht : t.hif = s.hif) (hg : engGet t e = engGet s e) (hi : t.inv = s.inv) :
    onEngine (dispatch op more feet f) e s = .next (tillerNext t e x) := by
  obtain ⟨hu, hn, ha⟩ := h
  refine onEngine_of_hif hu hn ?_ ht
  rw [dispatch_at op more feet f s e ha hm hw, hf]
  obtain ⟨hc, _, _, _, _, _, hs⟩ := ha
  have hc' : canDispatch t e = true := by simpa only [canDispatch, present, tileOf, hg, hi] using hc
  exact advance_next t e x hc' (hg ▸ hs) (hg.symm ▸ hx)

/-- The exception of the control core: the tiller stopped by it, memory as the instruction left it. -/
theorem finish_trap {q code : Nat} {addr : W64} (h : Undisturbed (engGet t e)) :
    (finish e q (.trap t code addr)).mem = t.mem ∧ (finish e q (.trap t code addr)).hif = t.hif ∧
      engGet (finish e q (.trap t code addr)) e = faultedBy (engGet t e)
        ⟨code, (engGet t e).pc, BitVec.ofNat 8 (wOp (engGet t e).word), q, addr, (engGet t e).ord, t.beat.now⟩ := by
  simp [finish, trapAt, raiseExc_undisturbed t e _ h]

/-- A dispatched instruction that raises an exception, with what it left behind of the rest of the block. -/
theorem onEngine_trap {code : Nat} {addr : W64} (h : Ready s e op) (ho : (engGet s e).owner = none)
    (hm : encodingGood (engGet s e).word more = true) (hw : NoWatch s e (feet s e (engGet s e).word))
    (hf : f s e (engGet s e).word = .trap t code addr) (ht : t.hif = s.hif) (hb : t.beat = s.beat) (hg : engGet t e = engGet s e) :
    ∃ u, onEngine (dispatch op more feet f) e s = .next u ∧ u.mem = t.mem ∧ engGet u e = faultedBy (engGet s e)
      ⟨code, (engGet s e).pc, BitVec.ofNat 8 op, wordQueue (engGet s e).word, addr, (engGet s e).ord, s.beat.now⟩ := by
  obtain ⟨hu, hn, ha⟩ := h
  obtain ⟨hmem, hhif, heng⟩ := finish_trap (q := wordQueue (engGet s e).word) (code := code) (addr := addr)
    (hg.symm ▸ undisturbed_of_atWord ha ho : Undisturbed (engGet t e))
  refine ⟨_, onEngine_of_hif hu hn ?_ (hhif.trans ht), hmem, ?_⟩
  · rw [dispatch_at op more feet f s e ha hm hw, hf]
  · rw [heng, hg, hb, ha.2.1]

end

/-- An instruction that goes to no queue is the control core's own: queue 4 of an exception's record (R155). -/
theorem wordQueue_control {w : IWord} {op : Nat} (h : wOp w = op) (hq : ((opSpec op).bind (fun sp => sp.qu)) = none) : wordQueue w = 4 := by
  unfold wordQueue
  rw [h]
  split
  · next hs => simp [hs] at hq
  · rfl

end Sys2Proof.Machine

/-!
Branches of the control core (R126, R130, R132).
-/

namespace Sys2Proof.Machine

theorem wSimm_toInt (w : IWord) : (wSimm w).toInt = (BitVec.ofNat 32 (fld w 64 32)).toInt :=
  BitVec.toInt_signExtend_of_le (by decide)

/-- The target of a relative branch (R132), in the words of the statements. -/
theorem relTarget_eq (g : Engine) (w : IWord) (rel : Int) (h : rel = (g.pc.toNat : Int) + (BitVec.ofNat 32 (fld w 64 32)).toInt) :
    relTarget g w = if 0 ≤ rel ∧ rel < 16384 then some rel.toNat else none := by
  subst h
  simp only [relTarget, wSimm_toInt, ← Int.lt_add_one_iff]
  rfl

section
variable {op : Nat} {cond : Engine → IWord → Bool} {upd : Engine → IWord → Bool → Engine} {tgt : Engine → IWord → Option Nat}
  {f : State → Nat → IWord → Ctl} {s : State} {e : Nat}

/-- A branch that nothing halts is dispatched whatever its guard, which is its condition (R126). -/
theorem dispatch_branch_at (h : ReadyBranch s e op) (hb : isBranch op = true) :
    dispatch op noMore noFeet f s e = finish e (wordQueue (engGet s e).word) (f s e (engGet s e).word) := by
  obtain ⟨_, _, hc, ho, hbar, hk, hm, _⟩ := h
  have hk' : (if (engGet s e).skip then none else bpHit (engGet s e)) = none := by rcases hk with h | h <;> simp [h]
  have hm' : encodingGood (engGet s e).word noMore = true := hm
  have hw : wpHit (engGet s e) [] [] = none := by simp [wpHit]
  simp [dispatch, hc, ho, hbar, hk', hm', hb, noFeet, hw]

/-- A branch that is taken to a good target goes on there. -/
theorem branch_taken {k : Nat} (h : ReadyBranch s e op) (hb : isBranch op = true) (hg : guardOf (engGet s e).preds (engGet s e).word = true)
    (hc : cond (engGet s e) (engGet s e).word = true) (ht : tgt (engGet s e) (engGet s e).word = some k)
    (hx : Calm (engGet s e) (upd (engGet s e) (engGet s e).word true)) :
    onEngine (branch op cond upd tgt) e s = .next (tillerJump s e ((upd (engGet s e) (engGet s e).word true).count 1) k) := by
  obtain ⟨hu, hn, hd, _, _, _, _, hs⟩ := id h
  refine onEngine_of_hif hu hn ?_ rfl
  obtain ⟨_, hst, hend, _, hexc⟩ := (canDispatch_iff s e).1 hd
  have hy := calm_count hx 1
  rw [branch, dispatch_branch_at h hb]
  simp only [hg, hc, ht, Bool.and_true, if_true, finish, engMod_put]
  exact afterDispatch_put s e _ (hy.st.trans hst) (hy.exc.trans hexc) (hy.ending.trans hend) (hy.single.trans hs)

/-- A branch that is not taken goes on to the next index, whatever its target. -/
theorem branch_not_taken (h : ReadyBranch s e op) (hb : isBranch op = true)
    (hg : (guardOf (engGet s e).preds (engGet s e).word && cond (engGet s e) (engGet s e).word) = false)
    (hx : Calm (engGet s e) (upd (engGet s e) (engGet s e).word false)) :
    onEngine (branch op cond upd tgt) e s = .next (tillerNext s e ((upd (engGet s e) (engGet s e).word false).count 1)) := by
  obtain ⟨hu, hn, hd, _, _, _, _, hs⟩ := id h
  refine onEngine_of_hif hu hn ?_ rfl
  rw [branch, dispatch_branch_at h hb]
  simp only [hg]
  exact advance_next s e _ hd hs (calm_count hx 1)

/-- A branch that is taken to a bad target raises ILLEGAL_ENCODING (R132), and changes no register. -/
theorem branch_illegal (h : ReadyBranch s e op) (hb : isBranch op = true) (hq : ((opSpec op).bind (fun sp => sp.qu)) = none)
    (ho : (engGet s e).owner = none) (hg : guardOf (engGet s e).preds (engGet s e).word = true)
    (hc : cond (engGet s e) (engGet s e).word = true) (ht : tgt (engGet s e) (engGet s e).word = none) :
    ∃ t, onEngine (branch op cond upd tgt) e s = .next t ∧ t.mem = s.mem ∧ engGet t e = faultedBy (engGet s e)
      ⟨1, (engGet s e).pc, BitVec.ofNat 8 op, 4, 0, (engGet s e).ord, s.beat.now⟩ := by
  obtain ⟨hu, hn, _, hop, _⟩ := id h
  obtain ⟨hmem, hhif, heng⟩ := finish_trap (q := 4) (code := 1) (addr := 0) (undisturbed_of_readyBranch h ho)
  refine ⟨_, onEngine_of_hif hu hn ?_ hhif, hmem, by rw [heng, hop]⟩
  rw [branch, dispatch_branch_at h hb, wordQueue_control hop hq]
  simp only [hg, hc, ht, Bool.and_true, if_true]

end


/-- Settles O5: each branch by the three outcomes of a branch. -/
theorem branchResults : Obligations.BranchResults := by
  unfold Obligations.BranchResults
  intro s e g w rel x y dec holds hg hw hrel hx hholds hdec hy
  subst hw hg
  have hgood : 0 ≤ rel → rel < 16384 → relTarget (engGet s e) (engGet s e).word = some rel.toNat := fun h0 h1 => by
    rw [relTarget_eq _ _ rel hrel, if_pos ⟨h0, h1⟩]
  have hbad : ¬ (0 ≤ rel ∧ rel < 16384) → relTarget (engGet s e) (engGet s e).word = none := fun h => by
    rw [relTarget_eq _ _ rel hrel, if_neg h]
  have hcalm : ∀ i v, Calm (engGet s e) ((engGet s e).setSreg i v) := calm_setSreg (calm_refl _)
  subst hx hholds hdec hy
  refine ⟨?br, ?brNot, ?link, ?linkNot, ?reg, ?regNot, ?dec, ?decNot, ?illegal⟩
  case br => exact fun h ht h0 h1 => branch_taken h rfl ht rfl (hgood h0 h1) (calm_refl _)
  case brNot => exact fun h ht => branch_not_taken h rfl (by simp [ht]) (calm_refl _)
  case link => exact fun h ht h0 h1 => branch_taken h rfl ht rfl (hgood h0 h1) (hcalm _ _)
  case linkNot => exact fun h ht => branch_not_taken h rfl (by simp [ht]) (calm_refl _)
  case reg => exact fun h ht hr => branch_taken h rfl ht rfl (if_pos hr) (calm_refl _)
  case regNot => exact fun h ht => branch_not_taken h rfl (by simp [ht]) (calm_refl _)
  case dec => exact fun h ht hy h0 h1 => branch_taken h rfl ht (bne_iff_ne.2 hy) (hgood h0 h1) (hcalm _ _)
  case decNot => exact fun h ht => branch_not_taken h rfl (Bool.and_eq_false_iff.2 (ht.imp_right bne_eq_false_iff_eq.2)) (hcalm _ _)
  case illegal =>
    rintro op c ho ht (⟨hc, hr⟩ | ⟨hc, hr⟩ | ⟨hc, hr⟩ | ⟨hc, hy, hr⟩) h <;> obtain ⟨rfl, rfl⟩ := Prod.mk.inj hc
    · exact branch_illegal h rfl rfl ho ht rfl (hbad hr)
    · exact branch_illegal h rfl rfl ho ht rfl (hbad hr)
    · exact branch_illegal h rfl rfl ho ht rfl (if_neg (Nat.not_lt.2 hr))
    · exact branch_illegal h rfl rfl ho ht (bne_iff_ne.2 hy) (hbad hr)

end Sys2Proof.Machine

/-!
The own window (R131): which byte an offset names, what 8 bytes of memory and a register's bytes are to each other, and s.ld and s.st.
-/

namespace Sys2Proof.Machine

/-! Numbers and their bytes (R5). -/

/-- Byte `i` of the number that a range of memory spells is the byte at `i`. -/
theorem leNat_memRead_byte (m : Mem) (a n i : Nat) (h : i < n) : leNat (memRead m a n) / 256 ^ i % 256 = (memGet m (a + i)).toNat := by
  induction n generalizing a i with
  | zero => omega
  | succ n ih =>
    have hb : (memGet m a).toNat < 256 := (memGet m a).isLt
    cases i with
    | zero => simp only [memRead, leNat, Nat.add_zero]; omega
    | succ k =>
      have hk := ih (a + 1) k (by omega)
      rw [Nat.pow_succ', ← Nat.div_div_eq_div_mul, memRead, leNat,
        show ((memGet m a).toNat + 256 * leNat (memRead m (a + 1) n)) / 256 = leNat (memRead m (a + 1) n) by omega, hk]
      congr 2
      omega

theorem leNat_memRead_lt (m : Mem) (a n : Nat) : leNat (memRead m a n) < 256 ^ n := by
  induction n generalizing a with
  | zero => simp [memRead, leNat]
  | succ n ih =>
    have hb : (memGet m a).toNat < 256 := (memGet m a).isLt
    have := ih (a + 1)
    rw [memRead, leNat, Nat.pow_succ]
    omega

@[simp] theorem leBytes_length (n v : Nat) : (leBytes n v).length = n := by
  induction n generalizing v with
  | zero => rfl
  | succ n ih => simp [leBytes, ih]

theorem leBytes_getElem (n v i : Nat) (h : i < (leBytes n v).length) : (leBytes n v)[i] = BitVec.ofNat 8 (v / 256 ^ i) := by
  induction n generalizing v i with
  | zero => simp [leBytes] at h
  | succ n ih =>
    cases i with
    | zero => simp [leBytes]
    | succ k =>
      have hk : k < (leBytes n (v / 256)).length := by simpa using h
      simp only [leBytes, List.getElem_cons_succ, ih (v / 256) k hk, Nat.pow_succ', Nat.div_div_eq_div_mul]

/-- Byte `i` of a word, as a number. -/
theorem extractLsb'_byte (v : W64) (i : Nat) : v.extractLsb' (8 * i) 8 = BitVec.ofNat 8 (v.toNat / 256 ^ i) := by
  apply BitVec.eq_of_toNat_eq
  rw [BitVec.extractLsb'_toNat, BitVec.toNat_ofNat, Nat.shiftRight_eq_div_pow, Nat.pow_mul]

/-- The word that 8 bytes of memory spell has them as its bytes. -/
theorem memNat_byte (s : State) (a i : Nat) (h : i < 8) :
    (BitVec.ofNat 64 (memNat s a 8)).extractLsb' (8 * i) 8 = memGet s.mem (a + i) := by
  apply BitVec.eq_of_toNat_eq
  have hlt : memNat s a 8 % 2 ^ 64 = leNat (memRead s.mem a 8) := Nat.mod_eq_of_lt (leNat_memRead_lt s.mem a 8)
  rw [extractLsb'_byte, BitVec.toNat_ofNat, BitVec.toNat_ofNat, hlt]
  exact leNat_memRead_byte s.mem a 8 i h

/-- 8 bytes of memory written from a word are its bytes. -/
theorem memGet_write_word (m : Mem) (a i : Nat) (v : W64) (h : i < 8) :
    memGet (memWrite m a (leBytes 8 v.toNat)) (a + i) = v.extractLsb' (8 * i) 8 := by
  rw [memGet_write_in m a i _ (by simpa using h), leBytes_getElem, extractLsb'_byte]

/-! The byte that an own-window offset names. -/

/-- Own-window offset `o` is legal, and names byte `off` of tile SRAM or of the accumulator store (R131, Table 2-3). -/
def Places (o : Nat) (acc : Bool) (off : Nat) : Prop :=
  o % 8 = 0 ∧ ((acc = false ∧ o < 0x1800000 ∧ off = o) ∨ (acc = true ∧ 0x1800000 ≤ o ∧ o < 0x1C00000 ∧ off = o - 0x1800000))

theorem ownPlace_of_places {o : W64} {acc : Bool} {off : Nat} (h : Places o.toNat acc off) : ownPlace o = some (acc, off) := by
  obtain ⟨h8, hpl⟩ := h
  have hok : ¬ (o.toNat % 8 ≠ 0 ∨ 0x1C00000 ≤ o.toNat) := by omega
  rcases hpl with ⟨hacc, hlt, hoff⟩ | ⟨hacc, hge, _, hoff⟩
  · rw [ownPlace, if_neg hok, if_pos hlt, hacc, hoff]
  · rw [ownPlace, if_neg hok, if_neg (Nat.not_lt.2 hge), hacc, hoff]

theorem ownPlace_illegal {o : W64} (h : o.toNat % 8 ≠ 0 ∨ 0x1C00000 ≤ o.toNat) : ownPlace o = none := if_pos h

/-- The address of the byte that an own-window offset names is the offset's in the window of the tiller. -/
theorem storeAddr_of_places {o : Nat} {acc : Bool} {off : Nat} (e : Nat) (h : Places o acc off) :
    storeAddr e acc off = 0x010000000000 + e * 0x02000000 + o := by
  obtain ⟨_, ⟨hacc, _, hoff⟩ | ⟨hacc, hge, _, hoff⟩⟩ := h
  · simp only [storeAddr, winBase, hacc, Bool.false_eq_true, if_false]
    omega
  · simp only [storeAddr, winBase, hacc, if_true]
    omega

/-- An instruction's footprints meet the 8 bytes from `off`. -/
theorem any_meets_iff (l : List QInstr) (fs : QInstr → List Foot) (acc : Bool) (off : Nat) :
    l.any (fun i => (fs i).any (⟨acc, off, off + 8⟩ : Foot).meets) = true ↔
      ∃ i ∈ l, ∃ f ∈ fs i, f.acc = acc ∧ f.lo < off + 8 ∧ off < f.hi := by
  simp only [List.any_eq_true, Foot.meets, Bool.and_eq_true, beq_iff_eq, decide_eq_true_eq]
  constructor
  · rintro ⟨i, hi, f, hf, ⟨ha, h1⟩, h2⟩
    exact ⟨i, hi, f, hf, ha.symm, h2, h1⟩
  · rintro ⟨i, hi, f, hf, ha, h2, h1⟩
    exact ⟨i, hi, f, hf, ⟨ha.symm, h1⟩, h2⟩

theorem any_meets_eq_false (l : List QInstr) (fs : QInstr → List Foot) (acc : Bool) (off : Nat)
    (h : ∀ i ∈ l, ∀ f ∈ fs i, ¬ (f.acc = acc ∧ f.lo < off + 8 ∧ off < f.hi)) :
    l.any (fun i => (fs i).any (⟨acc, off, off + 8⟩ : Foot).meets) = false := by
  rw [Bool.eq_false_iff, Ne, any_meets_iff]
  rintro ⟨i, hi, f, hf, hm⟩
  exact h i hi f hf hm

/-! The row of an uncorrectable error (R461). -/

@[simp] theorem memForget_hif (s : State) (lo hi : Nat) : (memForget s lo hi).hif = s.hif := by unfold memForget; split <;> rfl
@[simp] theorem memForget_beat (s : State) (lo hi : Nat) : (memForget s lo hi).beat = s.beat := by unfold memForget; split <;> rfl
@[simp] theorem memForget_engines (s : State) (lo hi : Nat) : (memForget s lo hi).engines = s.engines := by unfold memForget; split <;> rfl

/-- Bytes outside a range that becomes unspecified stay. -/
theorem memGet_memForget_out (s : State) (lo hi x : Nat) (h : x < lo ∨ hi ≤ x) : memGet (memForget s lo hi).mem x = memGet s.mem x := by
  unfold memForget
  split
  · rfl
  · exact memGet_fill_out s.mem lo hi _ x h

/-- All that can follow for a row: it is noted in the inventory and its contents become unspecified, or nothing. -/
theorem rowFails_cases (s : State) (a : Nat) :
    rowFails s a = s ∨ ∃ i, rowFails s a = memForget { s with inv := i } (a / 256 * 256) (a / 256 * 256 + 256) := by
  -- Unfolded before it is applied: the kernel would count down from 2 ^ 40 to evaluate the tiller's number.
  generalize hf : rowFails = f
  delta rowFails at hf
  have hbody := congrFun (congrFun hf s) a
  rw [← hbody]
  cases tileOf s ((a - 2 ^ 40) / 0x02000000) with
  | none => exact .inl rfl
  | some t =>
    by_cases ho : a % 0x02000000 < 0x1800000
    · exact .inr ⟨_, if_pos ho⟩
    · exact .inl (if_neg ho)

/-- What the failure of a row does not concern. -/
theorem rowFails_frame (s : State) (a : Nat) :
    (rowFails s a).hif = s.hif ∧ (rowFails s a).beat = s.beat ∧ (rowFails s a).engines = s.engines := by
  rcases rowFails_cases s a with h | ⟨i, h⟩ <;> simp [h]

/-- A row that fails loses no contents but its own. -/
theorem memGet_rowFails_out (s : State) (a x : Nat) (h : x < a / 256 * 256 ∨ a / 256 * 256 + 256 ≤ x) :
    memGet (rowFails s a).mem x = memGet s.mem x := by
  rcases rowFails_cases s a with hr | ⟨i, hr⟩ <;> rw [hr]
  exact memGet_memForget_out _ _ _ x h

/-! s.ld and s.st. -/

section
variable {s : State} {e : Nat} {acc : Bool} {off : Nat}

/-- No uncompleted instruction of the tiller has one of the footprints `fs` over the 8 bytes from `off`. -/
def FreeOf (g : Engine) (fs : QInstr → List Foot) (acc : Bool) (off : Nat) : Prop :=
  ∀ i ∈ g.uncompleted, ∀ f ∈ fs i, ¬ (f.acc = acc ∧ f.lo < off + 8 ∧ off < f.hi)

theorem doLd_illegal {err : Bool} {w : IWord} (h : ownPlace (ownOffset (engGet s e) w) = none) :
    doLd err s e w = .trap s 3 (ownOffset (engGet s e) w) := by
  simp [doLd, h]

theorem doSt_illegal {w : IWord} (h : ownPlace (ownOffset (engGet s e) w) = none) :
    doSt s e w = .trap s 3 (ownOffset (engGet s e) w) := by
  simp [doSt, h]

theorem doLd_stall {err : Bool} {w : IWord} (h : ownPlace (ownOffset (engGet s e) w) = some (acc, off))
    (hm : (engGet s e).uncompleted.any (fun i => i.dsts.any (⟨acc, off, off + 8⟩ : Foot).meets) = true) : doLd err s e w = .stall s := by
  simp only [doLd, h, hm, if_true]

theorem doSt_stall {w : IWord} (h : ownPlace (ownOffset (engGet s e) w) = some (acc, off))
    (hm : (engGet s e).uncompleted.any (fun i => (i.srcs ++ i.dsts).any (⟨acc, off, off + 8⟩ : Foot).meets) = true) :
    doSt s e w = .stall s := by
  simp only [doSt, h, hm, if_true]

theorem doLd_free {err : Bool} {w : IWord} (h : ownPlace (ownOffset (engGet s e) w) = some (acc, off))
    (hf : FreeOf (engGet s e) (fun i => i.dsts) acc off) :
    doLd err s e w = if err then .trap (rowFails s (storeAddr e acc off)) 6 (BitVec.ofNat 64 (storeAddr e acc off))
      else .go (engPut s e (((engGet s e).setSreg (wA w) (BitVec.ofNat 64 (memNat s (storeAddr e acc off) 8))).count 1)) := by
  simp only [doLd, h, any_meets_eq_false _ (fun i => i.dsts) acc off hf, Bool.false_eq_true, if_false]

theorem doSt_free {w : IWord} (h : ownPlace (ownOffset (engGet s e) w) = some (acc, off))
    (hf : FreeOf (engGet s e) (fun i => i.srcs ++ i.dsts) acc off) :
    doSt s e w = .go (engPut (memPut s (storeAddr e acc off) (leBytes 8 ((engGet s e).sreg (wA w)).toNat)) e ((engGet s e).count 1)) := by
  simp only [doSt, h, any_meets_eq_false _ (fun i => i.srcs ++ i.dsts) acc off hf, Bool.false_eq_true, if_false]
  rfl

theorem ownFeet_ld {w : IWord} (h : ownPlace (ownOffset (engGet s e) w) = some (acc, off)) :
    ownFeet false s e w = ([⟨acc, off, off + 8⟩], []) := by
  simp [ownFeet, h]

theorem ownFeet_st {w : IWord} (h : ownPlace (ownOffset (engGet s e) w) = some (acc, off)) :
    ownFeet true s e w = ([], [⟨acc, off, off + 8⟩]) := by
  simp [ownFeet, h]

theorem ownFeet_illegal {st : Bool} {w : IWord} (h : ownPlace (ownOffset (engGet s e) w) = none) : ownFeet st s e w = ([], []) := by
  simp [ownFeet, h]

/-- R131: s.ld over bytes that no uncompleted instruction writes. -/
theorem execSLd_reads (hp : ownPlace (ownOffset (engGet s e) (engGet s e).word) = some (acc, off)) (h : Ready s e 0x13)
    (hw : NoWatch s e ([⟨acc, off, off + 8⟩], [])) (hf : FreeOf (engGet s e) (fun i => i.dsts) acc off) :
    execSLd ⟨e, false⟩ s = .next (tillerNext s e
      (((engGet s e).setSreg (wA (engGet s e).word) (BitVec.ofNat 64 (memNat s (storeAddr e acc off) 8))).count 1)) :=
  onEngine_go h (ready_encoding h) ((ownFeet_ld hp).symm ▸ hw) (doLd_free hp hf) (calm_count (calm_setSreg (calm_refl _) _ _) 1)

/-- R131: s.st over bytes that no uncompleted instruction reads or writes. -/
theorem execSSt_writes (hp : ownPlace (ownOffset (engGet s e) (engGet s e).word) = some (acc, off)) (h : Ready s e 0x14)
    (hw : NoWatch s e ([], [⟨acc, off, off + 8⟩])) (hf : FreeOf (engGet s e) (fun i => i.srcs ++ i.dsts) acc off) :
    execSSt e s = .next (tillerNext
      (memPut s (storeAddr e acc off) (leBytes 8 ((engGet s e).sreg (wA (engGet s e).word)).toNat)) e ((engGet s e).count 1)) :=
  onEngine_go_put h (ready_encoding h) ((ownFeet_st hp).symm ▸ hw) (doSt_free hp hf) (calm_count (calm_refl _) 1) rfl rfl rfl

theorem execSLd_waits {err : Bool} (hp : ownPlace (ownOffset (engGet s e) (engGet s e).word) = some (acc, off)) (h : Ready s e 0x13)
    (hw : NoWatch s e ([⟨acc, off, off + 8⟩], []))
    (hm : ∃ i ∈ (engGet s e).uncompleted, ∃ f ∈ i.dsts, f.acc = acc ∧ f.lo < off + 8 ∧ off < f.hi) : execSLd ⟨e, err⟩ s = .next s :=
  onEngine_stall h (ready_encoding h) ((ownFeet_ld hp).symm ▸ hw) (doLd_stall hp ((any_meets_iff _ (fun i => i.dsts) _ _).2 hm)) rfl

theorem execSSt_waits (hp : ownPlace (ownOffset (engGet s e) (engGet s e).word) = some (acc, off)) (h : Ready s e 0x14)
    (hw : NoWatch s e ([], [⟨acc, off, off + 8⟩]))
    (hm : ∃ i ∈ (engGet s e).uncompleted, ∃ f ∈ i.srcs ++ i.dsts, f.acc = acc ∧ f.lo < off + 8 ∧ off < f.hi) : execSSt e s = .next s :=
  onEngine_stall h (ready_encoding h) ((ownFeet_st hp).symm ▸ hw) (doSt_stall hp ((any_meets_iff _ (fun i => i.srcs ++ i.dsts) _ _).2 hm)) rfl

/-- R139, R153, R461: s.ld that finds an uncorrectable error. -/
theorem execSLd_data (hp : ownPlace (ownOffset (engGet s e) (engGet s e).word) = some (acc, off)) (h : Ready s e 0x13)
    (ho : (engGet s e).owner = none) (hw : NoWatch s e ([⟨acc, off, off + 8⟩], []))
    (hf : FreeOf (engGet s e) (fun i => i.dsts) acc off) :
    ∃ t, execSLd ⟨e, true⟩ s = .next t ∧ t.mem = (rowFails s (storeAddr e acc off)).mem ∧ engGet t e = faultedBy (engGet s e)
      ⟨6, (engGet s e).pc, 0x13, 4, BitVec.ofNat 64 (storeAddr e acc off), (engGet s e).ord, s.beat.now⟩ := by
  obtain ⟨hhif, hbeat, heng⟩ := rowFails_frame s (storeAddr e acc off)
  have ht := onEngine_trap (more := noMore) (feet := ownFeet false) h ho (ready_encoding h) ((ownFeet_ld hp).symm ▸ hw) (doLd_free (err := true) hp hf)
    hhif hbeat (congrArg (fun l => tblGet (fun _ => Engine.zero) l e) heng)
  rwa [wordQueue_control (ready_wOp h) rfl] at ht

/-- R131: an own-window access with an illegal offset, whatever its read would find. -/
theorem own_illegal {op : Nat} {st : Bool} {f : State → Nat → IWord → Ctl} (h : Ready s e op) (ho : (engGet s e).owner = none)
    (hp : ownPlace (ownOffset (engGet s e) (engGet s e).word) = none) (hq : ((opSpec op).bind (fun sp => sp.qu)) = none)
    (hf : f s e (engGet s e).word = .trap s 3 (ownOffset (engGet s e) (engGet s e).word)) :
    ∃ t, onEngine (dispatch op noMore (ownFeet st) f) e s = .next t ∧ t.mem = s.mem ∧ engGet t e = faultedBy (engGet s e)
      ⟨3, (engGet s e).pc, BitVec.ofNat 8 op, 4, ownOffset (engGet s e) (engGet s e).word, (engGet s e).ord, s.beat.now⟩ := by
  have ht := onEngine_trap (more := noMore) (feet := ownFeet st) h ho (ready_encoding h) ((ownFeet_illegal hp).symm ▸ noWatch_none s e) hf rfl rfl rfl
  rwa [wordQueue_control (ready_wOp h) hq] at ht

end

/-- Settles O4: the load, the store, their waits, the load's error and the illegal offset, each by its lemma above. -/
theorem ownWindow : Obligations.OwnWindow := by
  unfold Obligations.OwnWindow
  constructor
  · intro s e o acc off g hg ho h8 hpl
    subst hg ho
    have hplaces : Places (ownOffset (engGet s e) (engGet s e).word).toNat acc off := ⟨h8, hpl⟩
    have hp := ownPlace_of_places hplaces
    have ha := storeAddr_of_places e hplaces
    refine ⟨?load, ?store, fun h hw hm => execSLd_waits hp h hw hm, fun h hw hm => execSSt_waits hp h hw hm, ?data⟩
    case load =>
      intro h hw hf
      refine ⟨_, execSLd_reads hp h hw hf, fun i hi => ?_⟩
      rw [memNat_byte s _ i hi, ha]
      rfl
    case store =>
      intro h hw hf
      refine ⟨_, execSSt_writes hp h hw hf, fun i hi => ?_, fun a hout => ?_⟩
      · rw [ha]
        exact memGet_write_word s.mem _ i _ hi
      · rw [ha]
        exact memGet_write_out s.mem _ a _ (by rwa [leBytes_length])
    case data =>
      rintro a rfl h howner hw hf
      obtain ⟨t, ht, hmem, heng⟩ := execSLd_data hp h howner hw hf
      rw [ha] at hmem heng
      exact ⟨t, ht, fun b hb => by rw [hmem]; exact memGet_rowFails_out s _ b hb, heng⟩
  · rintro s e g o hg ho hbad howner op c (⟨rfl, rfl | rfl⟩ | ⟨rfl, rfl⟩) h <;> subst hg ho
    · exact own_illegal h howner (ownPlace_illegal hbad) rfl (doLd_illegal (ownPlace_illegal hbad))
    · exact own_illegal h howner (ownPlace_illegal hbad) rfl (doLd_illegal (ownPlace_illegal hbad))
    · exact own_illegal h howner (ownPlace_illegal hbad) rfl (doSt_illegal (ownPlace_illegal hbad))

end Sys2Proof.Machine

/-!
Handles (R134, R135) and what synchronisation does (R146 to R150).
-/

namespace Sys2Proof.Machine

/-! Bits and fields. -/

theorem fld_eq_extractLsb' {n : Nat} (v : BitVec n) (lo len : Nat) : fld v lo len = (v.extractLsb' lo len).toNat := by
  rw [BitVec.extractLsb'_toNat, fld]

/-- Two words with the same bits in a field have the same field. -/
theorem fld_congr {n : Nat} {v u : BitVec n} {lo len : Nat} (h : ∀ i < len, v.getLsbD (lo + i) = u.getLsbD (lo + i)) :
    fld v lo len = fld u lo len := by
  rw [fld_eq_extractLsb', fld_eq_extractLsb']
  congr 1
  apply BitVec.eq_of_getLsbD_eq
  intro i hi
  simp [hi, h i hi]

theorem getLsbD_putBit_false {n : Nat} (w : BitVec n) (i : Nat) : (putBit w i false).getLsbD i = false := by
  by_cases hi : i < n
  · simp only [putBit, Bool.false_eq_true, if_false, BitVec.getLsbD_and, BitVec.getLsbD_not, BitVec.getLsbD_ofNat, hi,
      Nat.testBit_two_pow_self, decide_true, Bool.and_true, Bool.not_true, Bool.and_false]
  · exact BitVec.getLsbD_of_ge _ _ (Nat.not_lt.1 hi)

theorem getLsbD_putBit_false_ne {n : Nat} (w : BitVec n) (i j : Nat) (h : j ≠ i) : (putBit w i false).getLsbD j = w.getLsbD j := by
  by_cases hj : j < n
  · simp only [putBit, Bool.false_eq_true, if_false, BitVec.getLsbD_and, BitVec.getLsbD_not, BitVec.getLsbD_ofNat, hj,
      Nat.testBit_two_pow_of_ne h.symm, decide_true, Bool.and_false, Bool.not_false, Bool.and_true]
  · rw [BitVec.getLsbD_of_ge _ _ (Nat.not_lt.1 hj), BitVec.getLsbD_of_ge _ _ (Nat.not_lt.1 hj)]

/-- A number of `len` bits moved up by `lo` has no bit outside. -/
theorem testBit_shiftLeft_out {x lo len j : Nat} (hx : x < 2 ^ len) (h : j < lo ∨ lo + len ≤ j) : (x <<< lo).testBit j = false := by
  rw [Nat.testBit_shiftLeft, Bool.and_eq_false_iff]
  rcases h with h | h
  · exact .inl (decide_eq_false (Nat.not_le.2 h))
  · exact .inr (Nat.testBit_lt_two_pow (Nat.lt_of_lt_of_le hx (Nat.pow_le_pow_right (by decide) (by omega))))

/-- A field written leaves every bit outside it. -/
theorem getLsbD_setFld_out {n : Nat} (w : BitVec n) (lo len v j : Nat) (h : j < lo ∨ lo + len ≤ j) :
    (setFld w lo len v).getLsbD j = w.getLsbD j := by
  have hmask := testBit_shiftLeft_out (Nat.sub_lt (Nat.two_pow_pos len) Nat.one_pos) h
  have hval := testBit_shiftLeft_out (Nat.mod_lt v (Nat.two_pow_pos len)) h
  by_cases hj : j < n
  · simp only [setFld, BitVec.getLsbD_or, BitVec.getLsbD_and, BitVec.getLsbD_not, BitVec.getLsbD_ofNat, hmask, hval, hj, decide_true,
      Bool.and_false, Bool.not_false, Bool.and_true, Bool.or_false]
  · rw [BitVec.getLsbD_of_ge _ _ (Nat.not_lt.1 hj), BitVec.getLsbD_of_ge _ _ (Nat.not_lt.1 hj)]

/-! The values that handles take. -/

/-- Two 64-bit words joined, the second without its top bit. -/
theorem join_words (a b : W64) (m : BitVec 128) (hm : m.toNat = 2 ^ 63 - 1) :
    a.setWidth 128 ||| ((b.setWidth 128 &&& m) <<< 64) = BitVec.ofNat 128 (a.toNat + b.toNat % 2 ^ 63 * 2 ^ 64) := by
  have ha : a.toNat < 2 ^ 64 := a.isLt
  have hb : b.toNat < 2 ^ 64 := b.isLt
  have hlow : b.toNat % 2 ^ 63 < 2 ^ 63 := Nat.mod_lt _ (by decide)
  have hand : (b.setWidth 128 &&& m).toNat = b.toNat % 2 ^ 63 := by
    rw [BitVec.toNat_and, hm, Nat.and_two_pow_sub_one_eq_mod, BitVec.toNat_setWidth, Nat.mod_eq_of_lt (a := b.toNat) (b := 2 ^ 128) (by omega)]
  have hshift : ((b.setWidth 128 &&& m) <<< 64).toNat = (b.toNat % 2 ^ 63) <<< 64 := by
    rw [BitVec.toNat_shiftLeft, hand, Nat.shiftLeft_eq, Nat.mod_eq_of_lt (by omega)]
  have hsum : a.toNat + b.toNat % 2 ^ 63 * 2 ^ 64 < 2 ^ 128 := by omega
  apply BitVec.eq_of_toNat_eq
  rw [BitVec.toNat_or, hshift, BitVec.toNat_setWidth, BitVec.toNat_ofNat, Nat.mod_eq_of_lt hsum, Nat.mod_eq_of_lt (a := a.toNat) (by omega),
    Nat.or_comm, ← Nat.shiftLeft_add_eq_or_of_lt ha, Nat.shiftLeft_eq, Nat.add_comm]

theorem hdSetVal_eq (a b : W64) : hdSetVal a b = withValid (BitVec.ofNat 128 (a.toNat + b.toNat % 2 ^ 63 * 2 ^ 64)) :=
  congrArg withValid (join_words a b _ (by decide +kernel))

theorem hdBaseVal_in {d : BitVec 128} {a v : W64} {b : Int} (hsum : b = (fld d 0 19 : Int) + a.toInt) (h : 0 ≤ b ∧ b < 2 ^ 19) :
    hdBaseVal d a v = withValid (setFld d 0 19 b.toNat) := by
  subst hsum
  exact if_pos h

/-- hd.base with a sum outside 19 bits: not VALID, and every field but BASE as it was (R135). -/
theorem hdBaseVal_out {d : BitVec 128} {a v : W64} {b : Int} (hsum : b = (fld d 0 19 : Int) + a.toInt) (h : ¬ (0 ≤ b ∧ b < 2 ^ 19)) :
    (hdBaseVal d a v).getLsbD 127 = false ∧ fld (hdBaseVal d a v) 19 108 = fld d 19 108 := by
  subst hsum
  have hv : hdBaseVal d a v = putBit (setFld d 0 19 (fld v 0 19)) 127 false := if_neg h
  rw [hv]
  refine ⟨getLsbD_putBit_false _ _, fld_congr fun i hi => ?_⟩
  rw [getLsbD_putBit_false_ne _ _ _ (by omega), getLsbD_setFld_out _ _ _ _ _ (by omega)]

theorem shapeOk_and_iff (r c : W64) :
    (shapeOk r && shapeOk c) = true ↔ 1 ≤ r.toNat ∧ r.toNat ≤ 65535 ∧ 1 ≤ c.toNat ∧ c.toNat ≤ 65535 := by
  simp [shapeOk, and_assoc]

theorem hdShapeVal_in {d : BitVec 128} {r c v : W64} (h : (shapeOk r && shapeOk c) = true) :
    hdShapeVal d r c v = withValid (setFld (setFld d 32 16 r.toNat) 48 16 c.toNat) := by
  obtain ⟨hr, hc⟩ := Bool.and_eq_true_iff.1 h
  simp [hdShapeVal, hr, hc]

/-- hd.shape with a size out of range: not VALID, and every field but ROWS and COLS as it was (R135). -/
theorem hdShapeVal_out {d : BitVec 128} {r c v : W64} (h : (shapeOk r && shapeOk c) = false) :
    (hdShapeVal d r c v).getLsbD 127 = false ∧ fld (hdShapeVal d r c v) 0 32 = fld d 0 32 ∧
      fld (hdShapeVal d r c v) 64 63 = fld d 64 63 := by
  simp only [hdShapeVal, h]
  refine ⟨getLsbD_putBit_false _ _, fld_congr fun i hi => ?_, fld_congr fun i hi => ?_⟩ <;>
    rw [if_neg (by decide), getLsbD_putBit_false_ne _ _ _ (by omega), getLsbD_setFld_out _ _ _ _ _ (by omega), getLsbD_setFld_out _ _ _ _ _ (by omega)]

/-- The immediate of hd.rd has no bit but its lowest (R124). -/
theorem wImm_hdRd {w : IWord} {more : IWord → Bool} (h : encodingGood w more = true) (hop : wOp w = 0x43) : wImm w = fld w 64 1 := by
  have hs : opSpec (wOp w) = some ⟨.reg, .hand, .none, .none, 1, none⟩ := by rw [hop]; rfl
  simp only [encodingGood, hs, encodingOk, within, Bool.and_eq_true, beq_iff_eq] at h
  obtain ⟨⟨⟨_, h1⟩, _⟩, _⟩ := h
  rw [Nat.and_one_is_mod] at h1
  simp only [wImm, fld] at h1 ⊢
  omega

/-! Instructions without footprints. -/

section
variable {s : State} {e : Nat} {op : Nat} {more : IWord → Bool} {f : State → Nat → IWord → Ctl}

/-- An instruction without footprints that goes on with its tiller changed to `x`. -/
theorem onEngine_go_noFeet {x : Engine} (h : Ready s e op) (hm : encodingGood (engGet s e).word more = true)
    (hf : f s e (engGet s e).word = .go (engPut s e x)) (hx : Calm (engGet s e) x) :
    onEngine (dispatch op more noFeet f) e s = .next (tillerNext s e x) :=
  onEngine_go h hm (noWatch_none s e) hf hx

/-- An instruction without footprints that waits. -/
theorem onEngine_stall_noFeet {t : State} (h : Ready s e op) (hf : f s e (engGet s e).word = .stall t) (ht : t.hif = s.hif) :
    onEngine (dispatch op noMore noFeet f) e s = .next t :=
  onEngine_stall h (ready_encoding h) (noWatch_none s e) hf ht

end

/-! The handle instructions, for `g` the tiller and `w` its instruction. -/

section
variable {s : State} {e : Nat} {g : Engine} {w : IWord}

theorem execHdBase_in {b : Int} (h : Ready s e 0x41) (hg : g = engGet s e) (hw : w = g.word)
    (hsum : b = (fld (g.hand (wB w)) 0 19 : Int) + (g.sreg (wC w)).toInt) (hb : 0 ≤ b ∧ b < 2 ^ 19) :
    execHdBase e s = .next (tillerNext s e ((g.setHand (wA w) (withValid (setFld (g.hand (wB w)) 0 19 b.toNat))).count 1)) := by
  subst hw hg
  refine onEngine_go_noFeet h (ready_encoding h) ?_ (calm_count (calm_setHand (calm_refl _) _ _) 1)
  simp only [doHdBase, ← hsum, if_pos hb, hdBaseVal_in hsum hb]

theorem execHdBase_out {b : Int} (h : Ready s e 0x41) (hg : g = engGet s e) (hw : w = g.word)
    (hsum : b = (fld (g.hand (wB w)) 0 19 : Int) + (g.sreg (wC w)).toInt) (hb : ¬ (0 ≤ b ∧ b < 2 ^ 19)) :
    execHdBase e s = .next { tillerNext s e ((g.setHand (wA w)
      (hdBaseVal (g.hand (wB w)) (g.sreg (wC w)) (Config.freeWord s.free))).count 1) with free := s.free + 1 } := by
  subst hw hg
  refine onEngine_go_put (t := { s with free := s.free + 1 }) h (ready_encoding h) (noWatch_none s e) ?_
    (calm_count (calm_setHand (calm_refl _) _ _) 1) rfl rfl rfl
  simp only [doHdBase, ← hsum, if_neg hb, drawFree]

theorem execHdShape_in (h : Ready s e 0x42) (hg : g = engGet s e) (hw : w = g.word)
    (hk : (shapeOk (g.sreg (wC w)) && shapeOk (g.sreg (wD w))) = true) :
    execHdShape e s = .next (tillerNext s e ((g.setHand (wA w)
      (withValid (setFld (setFld (g.hand (wB w)) 32 16 (g.sreg (wC w)).toNat) 48 16 (g.sreg (wD w)).toNat))).count 1)) := by
  subst hw hg
  refine onEngine_go_noFeet h (ready_encoding h) ?_ (calm_count (calm_setHand (calm_refl _) _ _) 1)
  simp only [doHdShape, hk, if_true, hdShapeVal_in hk]

theorem execHdShape_out (h : Ready s e 0x42) (hg : g = engGet s e) (hw : w = g.word)
    (hk : (shapeOk (g.sreg (wC w)) && shapeOk (g.sreg (wD w))) = false) :
    execHdShape e s = .next { tillerNext s e ((g.setHand (wA w)
      (hdShapeVal (g.hand (wB w)) (g.sreg (wC w)) (g.sreg (wD w)) (Config.freeWord s.free))).count 1) with free := s.free + 1 } := by
  subst hw hg
  refine onEngine_go_put (t := { s with free := s.free + 1 }) h (ready_encoding h) (noWatch_none s e) ?_
    (calm_count (calm_setHand (calm_refl _) _ _) 1) rfl rfl rfl
  simp only [doHdShape, hk, drawFree, Bool.false_eq_true, if_false]

/-- hd.rd reads the half that its immediate names. -/
theorem execHdRd_reads (h : Ready s e 0x43) (hg : g = engGet s e) (hw : w = g.word) :
    execHdRd e s = .next (tillerNext s e
      ((g.setSreg (wA w) (BitVec.ofNat 64 (fld (g.hand (wB w)) (64 * fld w 64 1) 64))).count 1)) := by
  subst hw hg
  have hi := wImm_hdRd (ready_encoding h) (ready_wOp h)
  have hhalf : (if wImm (engGet s e).word = 0 then 0 else 64) = 64 * fld (engGet s e).word 64 1 := by
    have hlt : fld (engGet s e).word 64 1 < 2 := Nat.mod_lt _ (by decide)
    rw [hi]
    split <;> omega
  have hr := core1_ready (f := fun _ _ w g => g.setSreg (wA w) (BitVec.ofNat 64 (fld (g.hand (wB w)) (if wImm w = 0 then 0 else 64) 64))) h
    (calm_setSreg (calm_refl _) _ _)
  rwa [hhalf] at hr

end

/-! Waits and increments, whose condition holds or does not (R146 to R150). -/

/-- Queued increments do not touch the control core. -/
theorem calm_incs {g x : Engine} (h : Calm g x) (l : List Inc) : Calm g { x with incs := l } := ⟨h.st, h.exc, h.ending, h.single, h.pc⟩

/-- Increments for which there is room are all queued, in their order (R149). -/
theorem queueBar_room (g : Engine) (t : Nat) (l : List Nat) (h : g.incs.length + l.length ≤ 16) :
    queueBar g t l = ({ g with incs := g.incs ++ l.map (fun i => (⟨t, i, g.ord⟩ : Inc)) }, 0) := by
  induction l generalizing g with
  | nil => simp [queueBar]
  | cons x r ih =>
    have hr : incRoom g = true := decide_eq_true (by simp at h; omega)
    rw [queueBar, if_pos hr, ih _ (by simp [queueInc] at h ⊢; omega)]
    simp [queueInc]

/-- sy.bar begun with room for all its increments: they are queued, and its wait is met or not (R149). -/
theorem doBar_room (s : State) (e : Nat) (w : IWord) (hb : (engGet s e).bar = none)
    (hp : ∀ i ∈ setBits 64 ((engGet s e).sreg (wB w)).toNat, present s i = true)
    (hl : (engGet s e).incs.length + (setBits 64 ((engGet s e).sreg (wB w)).toNat).length ≤ 16) (q : Engine)
    (hq : q = { engGet s e with incs := (engGet s e).incs ++
      (setBits 64 ((engGet s e).sreg (wB w)).toNat).map (fun i => (⟨wA w, i, (engGet s e).ord⟩ : Inc)) }) :
    doBar s e w = if ((engGet s e).sreg (wC w)).toNat % 2 ^ 32 ≤ ((engGet s e).tok (wA w)).toNat then .go (engPut s e (q.count 1))
      else .stall (engPut s e ({ q with bar := some 0 }.count 3)) := by
  have hall : (setBits 64 ((engGet s e).sreg (wB w)).toNat).any (fun x => !present s x) = false := by
    simpa using hp
  have hbar : { q with bar := none } = q := by rw [hq, ← hb]
  have hreg : q.sreg (wC w) = (engGet s e).sreg (wC w) := by rw [hq]; rfl
  have htok : q.tok (wA w) = (engGet s e).tok (wA w) := by rw [hq]; rfl
  have hroom := queueBar_room _ (wA w) _ hl
  rw [← hq] at hroom
  simp [doBar, hb, hall, hroom, hbar, hreg, htok]

/-- The queues of a mask that hold nothing, with nothing executing, are drained (R150). -/
theorem drainedOf_empty (g : Engine) (m : Nat) (h0 : m.testBit 0 = true → g.qmm = []) (h1 : m.testBit 1 = true → g.qvx = [])
    (h2 : m.testBit 2 = true → g.qmv = []) (h3 : m.testBit 3 = true → g.qsf = []) (hx : g.exec = []) : drainedOf g m = true := by
  have hq : ∀ n (l : List QInstr), (m.testBit n = true → l = []) → (!(m.testBit n) || l.isEmpty) = true := by
    intro n l h
    cases hn : m.testBit n with
    | false => rfl
    | true => simp [h hn]
  simp only [drainedOf, hx, List.all_nil, Bool.and_true, List.all_cons, quNum, Engine.queue, hq 0 _ h0, hq 1 _ h1, hq 2 _ h2, hq 3 _ h3]

section
variable {s : State} {e : Nat}

theorem doTwait_met {w : IWord} (h : ((engGet s e).sreg (wB w)).toNat % 2 ^ 32 ≤ ((engGet s e).tok (wA w)).toNat) :
    doTwait s e w = .go (engPut s e ((engGet s e).count 1)) := if_pos h

theorem doTwait_unmet {w : IWord} (h : ((engGet s e).tok (wA w)).toNat < ((engGet s e).sreg (wB w)).toNat % 2 ^ 32) :
    doTwait s e w = .stall (engPut s e ((engGet s e).count 3)) := if_neg (Nat.not_le.2 h)

theorem doWait_met {w : IWord} (hd : workDue s = false) (h : ((engGet s e).sreg (wB w)).toNat ≤ s.beat.now.toNat) :
    doWait s e w = .go (engPut s e ((engGet s e).count 1)) := if_pos ⟨h, hd⟩

theorem doWait_unmet {w : IWord} (h : s.beat.now.toNat < ((engGet s e).sreg (wB w)).toNat) :
    doWait s e w = .stall (engPut s e ((engGet s e).count 3)) := if_neg (fun hc => Nat.not_le.2 h hc.1)

theorem doSyInc_room {w : IWord} (hx : ((engGet s e).sreg (wB w)).toNat < 64) (hp : present s ((engGet s e).sreg (wB w)).toNat = true)
    (hl : (engGet s e).incs.length < 16) : doSyInc s e w = .go (engPut s e
      ({ engGet s e with incs := (engGet s e).incs ++ [(⟨wA w, ((engGet s e).sreg (wB w)).toNat, (engGet s e).ord⟩ : Inc)] }.count 1)) := by
  simp [doSyInc, hx, hp, incRoom, hl, queueInc]

theorem doSyInc_full {w : IWord} (hx : ((engGet s e).sreg (wB w)).toNat < 64) (hp : present s ((engGet s e).sreg (wB w)).toNat = true)
    (hl : 16 ≤ (engGet s e).incs.length) : doSyInc s e w = .stall s := by
  simp [doSyInc, hx, hp, incRoom, Nat.not_lt.2 hl]

theorem doDrain_met {w : IWord} (h : drainedOf (engGet s e) (wImm w) = true) :
    doDrain s e w = .go (engPut s e ((engGet s e).count 1)) := if_pos h

end

/-- Settles O6: the handle instructions by the values they write, the tokens and waits by what each does when its condition holds and when
it does not. -/
theorem handlesAndTokens : Obligations.HandlesAndTokens := by
  unfold Obligations.HandlesAndTokens
  constructor
  · intro s e g w h x y b put hg hw hh hx hy hb hput
    subst hh hx hy
    refine ⟨?set, ?base, ?baseOut, ?shape, ?shapeOut, fun hr => execHdRd_reads hr hg hw, ?clr⟩
    case set =>
      intro hr
      subst hw hg
      rw [hput, ← hdSetVal_eq]
      exact core1_ready hr (calm_setHand (calm_refl _) _ _)
    case base =>
      intro hr h0 h1
      rw [hput]
      exact execHdBase_in hr hg hw hb ⟨h0, h1⟩
    case baseOut =>
      intro hr hout
      have hb' : ¬ (0 ≤ b ∧ b < 2 ^ 19) := by omega
      refine ⟨_, ?_, hdBaseVal_out (v := Config.freeWord s.free) hb hb'⟩
      rw [hput]
      exact execHdBase_out hr hg hw hb hb'
    case shape =>
      intro hr hr1 hr2 hc1 hc2
      rw [hput]
      exact execHdShape_in hr hg hw ((shapeOk_and_iff _ _).2 ⟨hr1, hr2, hc1, hc2⟩)
    case shapeOut =>
      intro hr hout
      have hk : (shapeOk (g.sreg (wC w)) && shapeOk (g.sreg (wD w))) = false :=
        Bool.eq_false_iff.2 (fun hk => hout ((shapeOk_and_iff _ _).1 hk))
      refine ⟨_, ?_, hdShapeVal_out (v := Config.freeWord s.free) hk⟩
      rw [hput]
      exact execHdShape_out hr hg hw hk
    case clr =>
      intro hr
      subst hw hg
      rw [hput]
      exact core1_ready hr (calm_setHand (calm_refl _) _ _)
  · intro s e g w x y hg hw hx hy
    subst hx hy hw hg
    have hstep := calm_count (calm_refl (engGet s e)) 1
    refine ⟨?tset, ?twait, ?twaitUnmet, ?wait, ?waitUnmet, ?inc, ?incFull, ?bar, ?barUnmet, ?drain⟩
    case tset => exact fun h => onEngine_go_noFeet h (ready_encoding h) rfl (calm_count (calm_setTok (calm_refl _) _ _) 1)
    case twait => exact fun h hm => onEngine_go_noFeet h (ready_encoding h) (doTwait_met hm) hstep
    case twaitUnmet => exact fun h hm => onEngine_stall_noFeet h (doTwait_unmet hm) rfl
    case wait =>
      intro h hd hm
      have hgo := onEngine_go_noFeet (more := noMore) h (ready_encoding h) (doWait_met hd hm) hstep
      exact ⟨hgo, hgo⟩
    case waitUnmet => exact fun h hm => onEngine_stall_noFeet h (doWait_unmet hm) rfl
    case inc =>
      exact fun h hlt hp hl => onEngine_go_noFeet h (ready_encoding h) (doSyInc_room hlt hp hl) (calm_count (calm_incs (calm_refl _) _) 1)
    case incFull => exact fun h hlt hp hl => onEngine_stall_noFeet h (doSyInc_full hlt hp hl) rfl
    case bar =>
      intro h hp hl hm
      refine onEngine_go_noFeet h (ready_encoding h) ?_ (calm_count (calm_incs (calm_refl _) _) 1)
      rw [doBar_room s e _ (ready_bar h) hp hl _ rfl, if_pos hm]
    case barUnmet =>
      intro h hp hl hm
      refine onEngine_stall_noFeet h ?_ rfl
      rw [doBar_room s e _ (ready_bar h) hp hl _ rfl, if_neg (Nat.not_le.2 hm)]
    case drain =>
      intro m h hm hne h0 h1 h2 h3 hx
      subst hm
      exact onEngine_go_noFeet h (encodingGood_and (ready_encoding h) (bne_iff_ne.2 hne))
        (doDrain_met (drainedOf_empty _ _ h0 h1 h2 h3 hx)) hstep

end Sys2Proof.Machine

/-!
Training of a port, the identity of its neighbour, HOLD and RELEASE (R305, R306).
-/

namespace Sys2Proof.Machine

/-! An event sets its bit, and no telling of an event clears one (R515). -/

theorem getLsbD_putBit_true {n i : Nat} (w : BitVec n) (h : i < n) : (putBit w i true).getLsbD i = true := by
  simp only [putBit, if_true, BitVec.getLsbD_or, BitVec.getLsbD_ofNat, h, Nat.testBit_two_pow_self, decide_true, Bool.and_true, Bool.or_true]

theorem getLsbD_putBit_true_of_set {n j : Nat} {w : BitVec n} (i : Nat) (h : w.getLsbD j = true) : (putBit w i true).getLsbD j = true := by
  simp only [putBit, if_true, BitVec.getLsbD_or, h, Bool.true_or]

/-- Every event bit that is set in `s` is set in `t`. -/
def KeepsEvents (s t : State) : Prop := ∀ b bit, (evGet s b).getLsbD bit = true → (evGet t b).getLsbD bit = true

theorem keepsEvents_trans {s t u : State} (h : KeepsEvents s t) (k : KeepsEvents t u) : KeepsEvents s u := fun b bit hb => k b bit (h b bit hb)

theorem keepsEvents_of_ev {s t : State} (h : t.ev = s.ev) : KeepsEvents s t := fun b bit hb => by
  rw [evGet, h]
  exact hb

@[simp] theorem hostWrite_ev (s : State) (a : Nat) (bs : List Byte) : (hostWrite s a bs).ev = s.ev := by
  unfold hostWrite
  split <;> rfl

@[simp] theorem interrupt_ev (s : State) : (interrupt s).ev = s.ev := by
  unfold interrupt signalVec
  dsimp only
  split
  · rfl
  · split <;> rfl

@[simp] theorem ringPut_ev (s : State) (r : FaultRec) : (ringPut s r).ev = s.ev := by
  unfold ringPut
  exact hostWrite_ev s _ _

@[simp] theorem mgmtPut_ev (s : State) (r : FaultRec) : (mgmtPut s r).2.ev = s.ev := by
  unfold mgmtPut
  split <;> rfl

theorem evGet_interrupt (s : State) (b : EvBlk) : evGet (interrupt s) b = evGet s b := by
  rw [evGet, interrupt_ev, evGet]

theorem setEvent_sets {bit : Nat} (s : State) (b : EvBlk) (h : bit < 32) : (evGet (setEvent s b bit) b).getLsbD bit = true := by
  unfold setEvent
  split
  · assumption
  · rw [evGet_interrupt, evGet_put_same]
    exact getLsbD_putBit_true _ h

theorem setEvent_keepsEvents (s : State) (b : EvBlk) (bit : Nat) : KeepsEvents s (setEvent s b bit) := by
  intro c k hc
  unfold setEvent
  split
  · exact hc
  · rw [evGet_interrupt]
    by_cases hcb : c = b
    · subst hcb
      rw [evGet_put_same]
      exact getLsbD_putBit_true_of_set bit hc
    · rwa [evGet_put_ne _ _ _ _ hcb]

theorem bumpFseq_keepsEvents (s : State) : KeepsEvents s (bumpFseq s) := keepsEvents_of_ev rfl

/-- A record that the fault ring cannot take is counted and sets FR_OVERFLOW (R394). -/
theorem frDrop_keepsEvents (s : State) : KeepsEvents s (setEvent { s with fr := { s.fr with drop := satInc s.fr.drop } } .hif 2) :=
  keepsEvents_trans (t := { s with fr := { s.fr with drop := satInc s.fr.drop } }) (keepsEvents_of_ev rfl) (setEvent_keepsEvents _ .hif 2)

theorem fqOverflow_keepsEvents (s : State) : KeepsEvents s (fqOverflow s) := by
  unfold fqOverflow
  refine keepsEvents_trans (keepsEvents_trans (setEvent_keepsEvents s .mgtNet 0) (bumpFseq_keepsEvents _)) ?_
  dsimp only
  split
  · exact keepsEvents_of_ev (ringPut_ev _ _)
  · exact frDrop_keepsEvents _

/-- A record that is put in the queue of the management port, which may overflow. -/
theorem mgmtPut_keepsEvents (s : State) (r : FaultRec) :
    KeepsEvents s (if (mgmtPut s r).1 then fqOverflow (mgmtPut s r).2 else (mgmtPut s r).2) := by
  have hput : KeepsEvents s (mgmtPut s r).2 := keepsEvents_of_ev (mgmtPut_ev s r)
  split
  · exact keepsEvents_trans hput (fqOverflow_keepsEvents _)
  · exact hput

theorem frOverflow_keepsEvents (s : State) : KeepsEvents s (frOverflow s) :=
  keepsEvents_trans (frDrop_keepsEvents s) (keepsEvents_trans (bumpFseq_keepsEvents _) (mgmtPut_keepsEvents _ _))

theorem record_keepsEvents (s : State) (kind status block bit : Byte) (addr : W64) (d : List Byte) :
    KeepsEvents s (record s kind status block bit addr d) := by
  have hbump := bumpFseq_keepsEvents s
  unfold record
  dsimp only
  cases ringRoom (bumpFseq s) with
  | true =>
    exact keepsEvents_trans (keepsEvents_trans hbump (keepsEvents_of_ev (ringPut_ev _ _))) (mgmtPut_keepsEvents _ _)
  | false => exact keepsEvents_trans (keepsEvents_trans hbump (mgmtPut_keepsEvents _ _)) (frOverflow_keepsEvents _)

/-- An event is raised by `event`. -/
theorem event_raised {bit : Nat} (s : State) (b : EvBlk) (idx : Nat) (h : bit < 32) : Raised s (event s b bit idx) b bit :=
  ⟨told_event s b bit idx 0 0 0 0, record_keepsEvents _ _ _ _ _ _ _ b bit (setEvent_sets s b h)⟩

theorem told_link {s t : State} (h : Told s t) : t.link = s.link := by rw [h]

/-! A command of the fabric while nothing goes on by itself. -/

/-- `t` has the work under way that `s` has. -/
structure SameWork (s t : State) : Prop where
  hif : t.hif = s.hif
  ops : t.rmt.ops = s.rmt.ops
  commits : t.mir.commits = s.mir.commits
  steps : t.seqs.steps = s.seqs.steps

theorem sameWork_refl (s : State) : SameWork s s := ⟨rfl, rfl, rfl, rfl⟩
theorem sameWork_portPut (s : State) (p : Nat) (x : Port) : SameWork s (portPut s p x) := ⟨rfl, rfl, rfl, rfl⟩
theorem sameWork_of_told {s t u : State} (h : SameWork s t) (k : Told t u) : SameWork s u := by
  rw [k]
  exact ⟨h.hif, h.ops, h.commits, h.steps⟩

theorem driveRound_id {s : State} (hops : s.rmt.ops = []) (hc : s.mir.commits = []) : driveRound s = s := by
  simp [driveRound, commitAll, hops, hc]

theorem drive_id {s : State} (hops : s.rmt.ops = []) (hc : s.mir.commits = []) : drive s = s := by
  simp [drive, driveRound_id hops hc]

/-- A descriptor found by its number is one of the started ones. -/
theorem mem_of_stGet {s : State} {k : Nat} {d : Started} (h : stGet s k = some d) : d ∈ s.hif.started := List.mem_of_find?_eq_some h

theorem writesAll_id {s : State} (h : ∀ d ∈ s.hif.started, d.wait ≠ .writes) : writesAll s = s := by
  refine foldl_id _ _ _ (fun x _ => ?_)
  unfold writesMore
  split
  · rfl
  · next d hd => rw [if_pos (h d (mem_of_stGet hd))]

theorem settleSteps_id {s : State} (hw : ∀ d ∈ s.hif.started, d.wait ≠ .journal ∧ d.wait ≠ .writes) (hs : s.seqs.steps = []) :
    settleSteps s = s := by
  have hj : each s.hif.started s journalSettle = s := foldl_id _ _ _ (fun d hd => if_pos (hw d hd).1)
  unfold settleSteps
  rw [writesAll_id (fun d hd => (hw d hd).2)]
  dsimp only
  rw [hj, hs]
  rfl

/-- While nothing goes on by itself, a command of the fabric that starts no work answers its effect. -/
theorem onFabric_idle {f : State → State} {s t : State} (h : Idle s) (hf : f s = t) (hw : SameWork s t) : onFabric f s = .next t := by
  obtain ⟨hup, hdue, hops, hcom, hsteps, hwait⟩ := h
  unfold onFabric
  rw [run_up s _ hup, hf, drive_id (hw.ops.trans hops) (hw.commits.trans hcom), settle_id t (noneDue_of_hif hw.hif hdue)]
  rw [settleSteps_id (by rwa [hw.hif]) (hw.steps.trans hsteps)]

/-- A command of the fabric that tells of an event of the links. -/
theorem onFabric_link_event {f : State → State} {s : State} {p bit : Nat} (h : Idle s) (hf : f s = event s .link bit p) (hb : bit < 32) :
    ∃ t, onFabric f s = .next t ∧ Raised s t .link bit :=
  have hr := event_raised s .link p hb
  ⟨_, onFabric_idle h hf (sameWork_of_told (sameWork_refl s) hr.1), hr⟩

/-- A command of the fabric that changes a port and tells of it. -/
theorem onFabric_port_event {f : State → State} {s : State} {p bit : Nat} {x : Port} (h : Idle s)
    (hf : f s = event (portPut s p x) .link bit p) (hb : bit < 32) :
    ∃ t, onFabric f s = .next t ∧ portGet t p = x ∧ Raised { s with link := t.link } t .link bit := by
  have hr := event_raised (portPut s p x) .link p hb
  have hlink := told_link hr.1
  refine ⟨_, onFabric_idle h hf (sameWork_of_told (sameWork_portPut s p x) hr.1), ?_, ?_⟩
  · rw [portGet, hlink]
    exact portGet_put_same s p x
  · rw [hlink]
    exact hr

/-- A setup register acts while the firmware runs. -/
theorem fwOnly_up {s : State} (f : State → State) (h : fwUp s = true) : fwOnly f s = f s := if_pos h

/-! What a port's commands do, a case at a time. -/

theorem enterUp_put (s : State) (p : Nat) (x : Port) : enterUp (portPut s p x) p = event (portPut s p { x with st := .up }) .link 2 p := by
  simp [enterUp]

theorem not_unfit {s : State} {p : Nat} {st : PortSt} (h : PortIn s p st) : ¬ (portsOf s ≤ p ∨ (portGet s p).st ≠ st) := by
  obtain ⟨hp, hst⟩ := h
  rintro (hle | hne)
  · exact Nat.not_lt.2 hle hp
  · exact hne hst

theorem tryTrain_unlocked {s : State} {p : Nat} (h : ringsLocked s p = false) : tryTrain s p = s := by
  simp [tryTrain, h]

section
variable {s : State} {p gen : Nat} {lanes : List Nat} {delay : W16} {id : PeerId}

/-- Each lane of port `p` was found where the lane map has it (R243). -/
def LanesRight (s : State) (p : Nat) (lanes : List Nat) : Prop :=
  ∀ i < (optGet s p).rxMap.length, lanes.getD i ((optGet s p).rxLane.getD i i) = (optGet s p).rxLane.getD i i

theorem wrongLanes_nil (h : LanesRight s p lanes) : (List.range (optGet s p).rxMap.length).filter
    (fun i => lanes.getD i ((optGet s p).rxLane.getD i i) != (optGet s p).rxLane.getD i i) = [] :=
  List.filter_eq_nil_iff.2 (fun i hi hw => bne_iff_ne.1 hw (h i (List.mem_range.1 hi)))

theorem trainEnd_good (h : PortIn s p .train) (hl : LanesRight s p lanes) : trainEnd p lanes delay true s =
    portPut { optPut s p { optGet s p with again := false } with
        beat := { s.beat with delay := tblSet (fun _ => 0) s.beat.delay p delay } } p
      { portGet s p with st := .ident, parts := [], txLanes := BitVec.ofNat 4 (optGet s p).txMap.length,
                         rxLanes := BitVec.ofNat 4 (optGet s p).rxMap.length } := by
  unfold trainEnd
  dsimp only
  rw [if_neg (not_unfit h), wrongLanes_nil hl]
  rfl

theorem trainEnd_bad (h : PortIn s p .train) (hl : LanesRight s p lanes) (hr : ringsLocked s p = false) :
    trainEnd p lanes delay false s = portPut (forgetBeat s p) p { portGet s p with st := .down } := by
  unfold trainEnd
  dsimp only
  rw [if_neg (not_unfit h), wrongLanes_nil hl]
  exact tryTrain_unlocked hr

theorem identEnd_waits (h : PortIn s p .ident) (hn : peerFrom (portGet s p).parts = none) : identEnd p s = s := by
  unfold identEnd
  dsimp only
  rw [if_neg (not_unfit h), hn]

theorem identEnd_self (h : PortIn s p .ident) (hid : peerFrom (portGet s p).parts = some id) (hown : id.serial = Config.serial) :
    identEnd p s = portPut s p { portGet s p with st := .self } := by
  unfold identEnd
  dsimp only
  rw [if_neg (not_unfit h), hid]
  exact if_pos hown

/-- The neighbour is the recorded one, or the port's role needs none recorded. -/
theorem identEnd_known (h : PortIn s p .ident) (hid : peerFrom (portGet s p).parts = some id) (hown : id.serial ≠ Config.serial)
    (hk : reservedPort s p = true ∨ (portGet s p).peer = some id) : identEnd p s =
      if (portGet s p).onHold then portPut s p { portGet s p with st := .hold }
      else if (optGet s p).test.isSome then portPut s p { portGet s p with st := .down } else enterUp s p := by
  unfold identEnd
  dsimp only
  rw [if_neg (not_unfit h), hid]
  exact (if_neg hown).trans (if_pos hk)

theorem identEnd_new (h : PortIn s p .ident) (hid : peerFrom (portGet s p).parts = some id) (hown : id.serial ≠ Config.serial)
    (hr : reservedPort s p = false) (hk : (portGet s p).peer ≠ some id) : identEnd p s =
      event (portPut s p { portGet s p with st := .hold, peer := some id, gen := (portGet s p).gen + 1, passed := false,
                                            testFresh := false, onHold := true }) .link 0 p := by
  have hnew : ¬ (reservedPort s p = true ∨ (portGet s p).peer = some id) := by simp [hr, hk]
  unfold identEnd
  dsimp only
  rw [if_neg (not_unfit h), hid]
  exact (if_neg hown).trans (if_neg hnew)

theorem release_passed (h : PortIn s p .hold) (ht : (portGet s p).passed = true) (hg : gen = (portGet s p).gen.toNat) :
    release p gen s = event (portPut s p { portGet s p with st := .up, onHold := false }) .link 2 p := by
  obtain ⟨hp, hst⟩ := h
  unfold release
  dsimp only
  rw [if_neg (Nat.not_le.2 hp), if_pos ⟨hst, hg, ht⟩, enterUp_put]

theorem release_refused (hp : p < portsOf s)
    (h : (portGet s p).st ≠ .hold ∨ gen ≠ (portGet s p).gen.toNat ∨ (portGet s p).passed = false) :
    release p gen s = event s .link 3 p := by
  have hno : ¬ ((portGet s p).st = .hold ∧ gen = (portGet s p).gen.toNat ∧ (portGet s p).passed = true) := by
    rintro ⟨hst, hg, ht⟩
    simp [hst, hg, ht] at h
  unfold release
  dsimp only
  rw [if_neg (Nat.not_le.2 hp), if_neg hno]

/-- A port through which no ACTIVE circuit goes breaks none. -/
theorem cktPortLost_none (h : ∀ n < 256, (cktGet s n).st ≠ 2) : cktPortLost s p = s := by
  have hnil : (List.range 256).filter (fun n => (cktGet s n).st == 2 && ((cktGet s n).inp.toNat == p || (cktGet s n).out.toNat == p)) = [] :=
    List.filter_eq_nil_iff.2 (fun n hn hc => h n (List.mem_range.1 hn) (beq_iff_eq.1 (Bool.and_eq_true_iff.1 hc).1))
  unfold cktPortLost
  dsimp only
  rw [hnil]
  rfl

theorem holdPort_up (h : PortIn s p .up) (hc : ∀ n < 256, (cktGet s n).st ≠ 2) :
    holdPort p s = portPut s p { portGet s p with st := .hold, onHold := true } := by
  obtain ⟨hp, hst⟩ := h
  unfold holdPort
  dsimp only
  rw [if_neg (Nat.not_le.2 hp), if_pos hst]
  exact cktPortLost_none hc

theorem holdPort_down (hp : p < portsOf s) (hst : (portGet s p).st ≠ .up) :
    holdPort p s = if (optGet s p).test.isSome then portPut s p { portGet s p with onHold := true } else s := by
  unfold holdPort
  dsimp only
  rw [if_neg (Nat.not_le.2 hp), if_neg hst]

end

/-! The same, as the commands answer while nothing goes on by itself. -/

section
variable {s : State} {p gen : Nat} {lanes : List Nat} {delay : W16} {id : PeerId}

/-- R305: training that has failed ends in DOWN, and the port forgets what it has heard of its neighbour's beat. -/
theorem execTrainEnd_bad (hi : Idle s) (h : PortIn s p .train) (hl : LanesRight s p lanes) (hr : ringsLocked s p = false) :
    ∃ t, execTrainEnd p lanes delay false s = .next t ∧ portGet t p = { portGet s p with st := .down } ∧ pbGet t p = PortBeat.init ∧
      t = { s with link := t.link, beat := { s.beat with ports := t.beat.ports } } :=
  ⟨_, onFabric_idle hi (trainEnd_bad h hl hr) ⟨rfl, rfl, rfl, rfl⟩, portGet_put_same _ _ _, pbGet_put_same s p _, rfl⟩

/-- R305, Table 16-11: the answers to the identity of a neighbour that needs no release. -/
theorem execIdentEnd_known (hi : Idle s) (h : PortIn s p .ident) (hid : peerFrom (portGet s p).parts = some id)
    (hown : id.serial ≠ Config.serial) (hk : reservedPort s p = true ∨ (portGet s p).peer = some id) :
    ((portGet s p).onHold = true → execIdentEnd p s = .next (portPut s p { portGet s p with st := .hold })) ∧
    ((portGet s p).onHold = false → (optGet s p).test ≠ none → execIdentEnd p s = .next (portPut s p { portGet s p with st := .down })) ∧
    ((portGet s p).onHold = false → (optGet s p).test = none → ∃ t, execIdentEnd p s = .next t ∧
      portGet t p = { portGet s p with st := .up } ∧ Raised { s with link := t.link } t .link 2) := by
  have hend := identEnd_known h hid hown hk
  refine ⟨fun ho => ?hold, fun ho ht => ?test, fun ho ht => ?up⟩
  case hold =>
    rw [if_pos ho] at hend
    exact onFabric_idle hi hend (sameWork_portPut s p _)
  case test =>
    rw [if_neg (by simp [ho]), if_pos (Option.isSome_iff_ne_none.2 ht)] at hend
    exact onFabric_idle hi hend (sameWork_portPut s p _)
  case up =>
    rw [if_neg (by simp [ho]), if_neg (by simp [ht])] at hend
    exact onFabric_port_event hi hend (by decide)

theorem execHold_down (hi : Idle s) (hfw : fwUp s = true) (hp : p < portsOf s) (hst : (portGet s p).st ≠ .up) :
    execHold p s = .next (if (optGet s p).test.isSome then portPut s p { portGet s p with onHold := true } else s) := by
  refine onFabric_idle hi ((fwOnly_up _ hfw).trans (holdPort_down hp hst)) ?_
  split
  · exact sameWork_portPut s p _
  · exact sameWork_refl s

/-- R306: a command to a port that is not fitted is refused. -/
theorem exec_unfitted (hi : Idle s) (hfw : fwUp s = true) (hp : portsOf s ≤ p) {c : Instr}
    (hc : c = .release p gen ∨ c = .hold p ∨ c = .retrain p) : ∃ t, exec c s = .next t ∧ Raised s t .link 6 := by
  rcases hc with rfl | rfl | rfl
  · exact onFabric_link_event hi ((fwOnly_up (release p gen) hfw).trans (if_pos hp)) (by decide)
  · exact onFabric_link_event hi ((fwOnly_up (holdPort p) hfw).trans (if_pos hp)) (by decide)
  · exact onFabric_link_event hi ((fwOnly_up (retrain p) hfw).trans (if_pos hp)) (by decide)

end

/-- Settles O37: each command by what it does to the port in the state it meets; with nothing else under way that is its whole answer. -/
theorem linkTraining : Obligations.LinkTraining := by
  unfold Obligations.LinkTraining
  intro s p gen lanes delay x o hi hx ho
  subst hx ho
  refine ⟨?train, ?ident, ?identWaits, ?release, ?refused, ?hold, ?holdDown, fun hfw hp c hc => exec_unfitted hi hfw hp hc⟩
  case train =>
    intro h hl
    exact ⟨onFabric_idle hi (trainEnd_good h hl) ⟨rfl, rfl, rfl, rfl⟩, fun hr => execTrainEnd_bad hi h hl hr⟩
  case ident =>
    intro id h hid
    refine ⟨fun hown => ?_, fun hown hk => execIdentEnd_known hi h hid hown hk, fun hown hr hk => ?_⟩
    · exact onFabric_idle hi (identEnd_self h hid hown) (sameWork_portPut s p _)
    · exact onFabric_port_event hi (identEnd_new h hid hown hr hk) (by decide)
  case identWaits => exact fun h hn => onFabric_idle hi (identEnd_waits h hn) (sameWork_refl s)
  case release =>
    intro hfw h ht hg
    exact onFabric_port_event hi ((fwOnly_up _ hfw).trans (release_passed h ht hg)) (by decide)
  case refused =>
    intro hfw hp h
    exact onFabric_link_event hi ((fwOnly_up _ hfw).trans (release_refused hp h)) (by decide)
  case hold =>
    intro hfw h hc
    exact onFabric_idle hi ((fwOnly_up _ hfw).trans (holdPort_up h hc)) (sameWork_portPut s p _)
  case holdDown => exact fun hfw hp hst => execHold_down hi hfw hp hst

end Sys2Proof.Machine
/-!
Accesses of BAR0 and BAR2 (R7, R373, R469, R508, R509, R511, R512).
-/

namespace Sys2Proof.Machine

/-! The bytes of a written word. -/

theorem leNat_leBytes (n v : Nat) : leNat (leBytes n v) = v % 256 ^ n := by
  induction n generalizing v with
  | zero => simp [leBytes, leNat, Nat.mod_one]
  | succ n ih => rw [leBytes, leNat, ih, BitVec.toNat_ofNat, Nat.pow_succ' (m := 256), Nat.mod_mul]

/-- The word that the 4 bytes of `v` spell. -/
theorem ofNat_leNat_leBytes (v : W32) : BitVec.ofNat 32 (leNat (leBytes 4 v.toNat)) = v := by
  apply BitVec.eq_of_toNat_eq
  rw [leNat_leBytes, BitVec.toNat_ofNat, Nat.mod_eq_of_lt (b := 256 ^ 4) v.isLt, Nat.mod_eq_of_lt v.isLt]

/-- The lower half of a 64-bit word is its lowest 32 bits. -/
theorem setWidth_eq_fld (x : W64) : x.setWidth 32 = BitVec.ofNat 32 (fld x 0 32) := by
  apply BitVec.eq_of_toNat_eq
  simp [fld]

/-! The registers that a write may find closed. -/

/-- The 4-byte registers of those that HIF_SETUP_LOCK locks (R375, R512). -/
def locked32 : List Nat := [0x1000, 0x100C, 0x70000, 0x70008, 0x7000C, 0x70010, 0xE0020, 0xF0000, 0x410000, 0x41001C]
/-- The 8-byte registers of those that HIF_SETUP_LOCK locks. -/
def locked64 : List Nat := [0x1010, 0x1018, 0x1020, 0x1028, 0x90068]
/-- The 4-byte registers of those that take effect through REG_WRITE only (R427, R511). -/
def mgmt32 : List Nat := [0xC0000, 0xC0020, 0xD0010, 0xD0028, 0xD0038, 0xD1000, 0xD1004]
/-- The 8-byte registers of those that take effect through REG_WRITE only. -/
def mgmt64 : List Nat := [0xD0008, 0xD0020, 0xD1008, 0xD1010, 0xD1040]

theorem place_guarded32 : ∀ a ∈ locked32 ++ mgmt32, a < 0x2000000 ∧ a % 4 = 0 := by decide
theorem place_guarded64 : ∀ a ∈ locked64 ++ mgmt64, a < 0x2000000 ∧ a % 8 = 0 := by decide

/-- None of them is an event register. -/
theorem evAt_guarded : ∀ a ∈ locked32 ++ mgmt32, evAt a = none := by decide

/-! Which words belong to 64-bit registers depends on the assembly option only (R509). -/

theorem is64_event (s : State) (b : EvBlk) : is64 s (evOffset b / 8 * 8) = false := by
  unfold is64 portsOf ioDiesOf
  generalize s.opt = o
  cases o <;> cases b <;> rfl

theorem is64_pwrCtrl (s : State) : is64 s 0xE0000 = false := by
  unfold is64 portsOf ioDiesOf
  generalize s.opt = o
  cases o <;> rfl

theorem is64_guarded32 (s : State) : ∀ a ∈ locked32 ++ mgmt32, is64 s (a / 8 * 8) = false := by
  unfold is64 portsOf ioDiesOf
  generalize s.opt = o
  cases o <;> decide

theorem is64_guarded64 (s : State) : ∀ a ∈ locked64 ++ mgmt64, is64 s a = true := by
  unfold is64 portsOf ioDiesOf
  generalize s.opt = o
  cases o <;> decide

/-! The access rules: what `barStore` does with each shape of a write while the firmware runs (R508, R509). -/

theorem hifCmdErr_raised (s : State) : Raised s (hifCmdErr s) .hif 3 := ⟨told_setEvent s .hif 3, setEvent_sets s .hif (by decide)⟩

section
variable {s : State} {path : RegPath} {hv : HostView} {off : Nat} {bytes : List Byte}

theorem barStore_word (hfw : fwUp s = true) (ho : off < 0x2000000) (ha : off % 4 = 0) (hn : bytes.length = 4) :
    barStore path hv off bytes true s = store32 path hv off (BitVec.ofNat 32 (leNat bytes)) s := by
  simp [barStore, hfw, Nat.not_le.2 ho, ha, hn]

theorem barStore_dword (hfw : fwUp s = true) (ho : off < 0x2000000) (ha : off % 8 = 0) (hn : bytes.length = 8) :
    barStore path hv off bytes true s = store64 path hv off (BitVec.ofNat 64 (leNat bytes)) s := by
  simp [barStore, hfw, Nat.not_le.2 ho, ha, hn]

theorem barStore_misshapen {en : Bool} (hfw : fwUp s = true) (ho : off < 0x2000000)
    (h : en = false ∨ ¬ ((bytes.length = 4 ∧ off % 4 = 0) ∨ (bytes.length = 8 ∧ off % 8 = 0))) :
    barStore path hv off bytes en s = hifCmdErr s := by
  have hbad : (en && ((bytes.length == 4 && off % 4 == 0) || (bytes.length == 8 && off % 8 == 0))) = false := by
    rcases h with rfl | h
    · rfl
    · rw [Bool.and_eq_false_iff]
      exact .inr (by simpa using h)
  simp [barStore, hfw, Nat.not_le.2 ho, hbad]

/-- A 4-byte write of a 32-bit register. -/
theorem barStore_reg32 (hfw : fwUp s = true) (ho : off < 0x2000000) (ha : off % 4 = 0) (h64 : is64 s (off / 8 * 8) = false)
    (hn : bytes.length = 4) : barStore path hv off bytes true s = write32 path hv off (BitVec.ofNat 32 (leNat bytes)) s := by
  rw [barStore_word hfw ho ha hn, store32, h64]
  rfl

/-- A 4-byte write of half of a 64-bit register. -/
theorem barStore_half (hfw : fwUp s = true) (ho : off < 0x2000000) (ha : off % 4 = 0) (h64 : is64 s (off / 8 * 8) = true)
    (hn : bytes.length = 4) : barStore path hv off bytes true s = hifCmdErr s := by
  rw [barStore_word hfw ho ha hn, store32, h64]
  rfl

/-- An 8-byte write of a 64-bit register. -/
theorem barStore_reg64 (hfw : fwUp s = true) (ho : off < 0x2000000) (ha : off % 8 = 0) (h64 : is64 s off = true)
    (hn : bytes.length = 8) : barStore path hv off bytes true s = write64 path off (BitVec.ofNat 64 (leNat bytes)) s := by
  rw [barStore_dword hfw ho ha hn, store64, h64]
  rfl

/-- An 8-byte write of two 32-bit registers, the lower first. -/
theorem barStore_pair (hfw : fwUp s = true) (ho : off < 0x2000000) (ha : off % 8 = 0) (h64 : is64 s off = false)
    (hn : bytes.length = 8) {x : W64} (hx : x = BitVec.ofNat 64 (leNat bytes)) : barStore path hv off bytes true s =
      write32 path hv (off + 4) (BitVec.ofNat 32 (fld x 32 32)) (write32 path hv off (BitVec.ofNat 32 (fld x 0 32)) s) := by
  rw [barStore_dword hfw ho ha hn, store64, h64, ← hx, ← setWidth_eq_fld]
  rfl

end

/-- A write of the 4 bytes of `v`. -/
theorem barStore_leBytes {s : State} {path : RegPath} {hv : HostView} {off : Nat} (v : W32) (hfw : fwUp s = true) (ho : off < 0x2000000)
    (ha : off % 4 = 0) (h64 : is64 s (off / 8 * 8) = false) :
    barStore path hv off (leBytes 4 v.toNat) true s = write32 path hv off v s := by
  rw [barStore_reg32 hfw ho ha h64 (leBytes_length 4 _), ofNat_leNat_leBytes]

/-! Writes of closed registers. -/

theorem rwl_locked {s : State} (f : State → State) (h : s.hif.locked = true) : rwl f s = s := if_pos h

theorem mgmtOnly_other {s : State} {path : RegPath} (f : State → State) (h : path ≠ .mgmt) : mgmtOnly path f s = s := if_neg h

section
variable {s : State} {path : RegPath} {hv : HostView}

theorem maintWrite_locked (v : W32) (h : s.hif.locked = true) : maintWrite v s = s := if_pos h

/-- A locked 4-byte register after the lock, block by block. -/
theorem write32_locked (v : W32) (h : s.hif.locked = true) : ∀ a ∈ locked32, write32 path hv a v s = s := by
  have hhif : ∀ a ∈ [0x1000, 0x100C], hifWrite32 hv a v s = s := by simp [hifWrite32, rwl_locked, h]
  have hopt : ∀ a ∈ [0x70000, 0x70008, 0x7000C, 0x70010], optWrite a v s = s := by simp [optWrite, rwl_locked, h]
  have hpwr : ∀ a ∈ [0xE0020, 0xF0000], pwrWrite a v s = s := by simp [pwrWrite, rwl_locked, h]
  have hmem : ∀ a ∈ [0x410000, 0x41001C], memWrite32 a v s = s := by simp [memWrite32, rwl_locked, maintWrite_locked, h]
  intro a ha
  have hev := evAt_guarded a (List.mem_append_left _ ha)
  simp only [locked32, List.mem_cons, List.not_mem_nil, or_false] at ha
  rcases ha with rfl | rfl | rfl | rfl | rfl | rfl | rfl | rfl | rfl | rfl <;> simp [write32, hev, hhif, hopt, hpwr, hmem]

/-- A locked 8-byte register after the lock. -/
theorem write64_locked (v : W64) (h : s.hif.locked = true) : ∀ a ∈ locked64, write64 path a v s = s := by
  simp [locked64, write64, hifWrite64, fabWrite64, rwl_locked, h]

/-- What fences, renews or reclaims takes effect through REG_WRITE only. -/
theorem leaseCmd_other (v : W32) (h : path ≠ .mgmt) :
    fdomWrite path v s = s ∧ fenceCmd path v s = s ∧ renew path v s = s ∧ reclaimGo path s = s := by
  simp [fdomWrite, fenceCmd, fenceAdd, fenceRemove, fenceClear, renew, reclaimGo, h]

/-- A 4-byte register of the management network, written on another path. -/
theorem write32_mgmt (v : W32) (h : path ≠ .mgmt) : ∀ a ∈ mgmt32, write32 path hv a v s = s := by
  obtain ⟨hfdom, hfence, hrenew, hreclaim⟩ := leaseCmd_other (s := s) v h
  have hrmt : ∀ a ∈ [0xC0000, 0xC0020], rmtWrite path a v s = s := by simp [rmtWrite, hfdom, hfence]
  have hmgt : ∀ a ∈ [0xD0010, 0xD0028, 0xD0038, 0xD1000, 0xD1004], mgtWrite path a v s = s := by
    simp [mgtWrite, hrenew, hreclaim, mgmtOnly_other, h]
  intro a ha
  have hev := evAt_guarded a (List.mem_append_right _ ha)
  simp only [mgmt32, List.mem_cons, List.not_mem_nil, or_false] at ha
  rcases ha with rfl | rfl | rfl | rfl | rfl | rfl | rfl <;> simp [write32, hev, hrmt, hmgt]

/-- An 8-byte register of the management network, written on another path. -/
theorem write64_mgmt (v : W64) (h : path ≠ .mgmt) : ∀ a ∈ mgmt64, write64 path a v s = s := by
  simp [mgmt64, write64, fabWrite64, mgmtOnly_other, h]

/-- A 4-byte write of BAR0 that finds its register closed. -/
theorem barStore_closed32 {a : Nat} {bytes : List Byte} (hfw : fwUp s = true) (ha : a ∈ locked32 ++ mgmt32) (hn : bytes.length = 4)
    (hw : ∀ v, write32 path hv a v s = s) : barStore path hv a bytes true s = s := by
  obtain ⟨hlt, hal⟩ := place_guarded32 a ha
  rw [barStore_reg32 hfw hlt hal (is64_guarded32 s a ha) hn, hw]

/-- An 8-byte write of BAR0 that finds its register closed. -/
theorem barStore_closed64 {a : Nat} {bytes : List Byte} (hfw : fwUp s = true) (ha : a ∈ locked64 ++ mgmt64) (hn : bytes.length = 8)
    (hw : ∀ v, write64 path a v s = s) : barStore path hv a bytes true s = s := by
  obtain ⟨hlt, hal⟩ := place_guarded64 a ha
  rw [barStore_reg64 hfw hlt hal (is64_guarded64 s a ha) hn, hw]

/-- R512: the locked registers take no write after the lock. -/
theorem barStore_locked {bytes : List Byte} (hfw : fwUp s = true) (h : s.hif.locked = true) :
    (∀ a ∈ locked32, bytes.length = 4 → barStore path hv a bytes true s = s) ∧
      (∀ a ∈ locked64, bytes.length = 8 → barStore path hv a bytes true s = s) :=
  ⟨fun a ha hn => barStore_closed32 hfw (List.mem_append_left _ ha) hn (fun v => write32_locked v h a ha),
    fun a ha hn => barStore_closed64 hfw (List.mem_append_left _ ha) hn (fun v => write64_locked v h a ha)⟩

/-- R511: the registers of the management network take no write on another path. -/
theorem barStore_mgmt {bytes : List Byte} (hfw : fwUp s = true) (h : path ≠ .mgmt) :
    (∀ a ∈ mgmt32, bytes.length = 4 → barStore path hv a bytes true s = s) ∧
      (∀ a ∈ mgmt64, bytes.length = 8 → barStore path hv a bytes true s = s) :=
  ⟨fun a ha hn => barStore_closed32 hfw (List.mem_append_right _ ha) hn (fun v => write32_mgmt v h a ha),
    fun a ha hn => barStore_closed64 hfw (List.mem_append_right _ ha) hn (fun v => write64_mgmt v h a ha)⟩

end

/-! Reads of BAR0. -/

theorem bar0Get_fits {s : State} {off n : Nat} (h : bar0Fits off n = true) : bar0Get off n s = emit s (.bar (bar0Bytes s off n)) := by
  simp [bar0Get, h]

theorem bar0Get_crosses {s : State} {off n : Nat} (hfw : fwUp s = true) (h : bar0Fits off n = false) :
    bar0Get off n s = emit (hifCmdErr s) (.bar (List.replicate n 0xFF)) := by
  simp [bar0Get, bar0Bytes, h, hfw]

/-! Reads of BAR2 and BAR4. -/

section
variable {s : State} {off n a : Nat}

theorem mapRefusal_hbm (hd : decodeAddr s a = .hbm) (ho : hbmOk s a n = true) : mapRefusal s a n = none := by
  simp [mapRefusal, hd, ho]

theorem mapRefusal_nothing (hn : 0 < n) (hd : decodeAddr s a = .nothing) : mapRefusal s a n = some a := by
  simp [mapRefusal, hd, Nat.ne_of_gt hn]

theorem pkgRead_hbm (hn : 0 < n) (hd : decodeAddr s a = .hbm) (ho : hbmOk s a n = true) (hr : readFails s a n = false) :
    pkgRead s a n = (.bytes (memRead s.mem a n), s) := by
  simp [pkgRead, mapRefusal_hbm hd ho, hd, hr, Nat.ne_of_gt hn]

theorem pkgRead_nothing (hn : 0 < n) (hd : decodeAddr s a = .nothing) : pkgRead s a n = (.bytes (ones n), refusedAccess s a 0) := by
  simp [pkgRead, mapRefusal_nothing hn hd, Nat.ne_of_gt hn]

/-- A read of the window gives the bytes that package memory gives. -/
theorem bar2Get_bytes {l : List Byte} {t : State} (hfw : fwUp s = true) (hw : off + n ≤ 2 ^ 36)
    (hr : pkgRead s (s.hif.bar2Base.toNat + off) n = (.bytes l, t)) : bar2Get off n s = emit t (.bar l) := by
  simp only [bar2Get, bar2Size, Nat.not_lt.2 hw, hfw, hr, if_false, Bool.not_true, Bool.false_eq_true]

theorem told_refusedAccess (s : State) (a : Nat) (st : Byte) : Told s (refusedAccess s a st) := told_record s _ _ _ _ _ _

theorem bar4Get_table (h : off + n ≤ 4096) :
    bar4Get off n s = emit s (.bar ((((List.range 256).flatMap (vecBytes s)).drop off).take n)) := if_pos h

/-- Neither the table nor the pending-bit array (R372). -/
theorem bar4Get_outside (ho : 4096 ≤ off) (hn : 0 < n) (h : off < 0x8000 ∨ 0x8020 < off + n) :
    bar4Get off n s = emit s .barUnsupported := by
  rw [bar4Get, if_neg (by omega), if_neg (by omega)]

end

/-! Home writes to memory without faults, directories being cleared or mirrors (R42, R403). -/

section
variable {s : State} {a : Nat} {bs : List Byte}

/-- `t` differs from `s` in nothing but the die caches and their directories. -/
def CohOnly (s t : State) : Prop := t = { s with coh := t.coh }

theorem cohOnly_trans {s t u : State} (h : CohOnly s t) (k : CohOnly t u) : CohOnly s u := by
  unfold CohOnly at *
  rw [k, h]

theorem each_cohOnly {α : Type} (f : State → α → State) (hf : ∀ s x, CohOnly s (f s x)) (l : List α) (s : State) : CohOnly s (each l s f) := by
  induction l generalizing s with
  | nil => rfl
  | cons x r ih => exact cohOnly_trans (hf s x) (ih (f s x))

theorem dropCopies_cohOnly (p : Nat → Bool) (s : State) (d : Nat) : CohOnly s (dropCopies p s d) := by
  unfold dropCopies
  dsimp only
  split <;> rfl

theorem dirPut_cohOnly (s : State) (j : Nat) (l : List (Nat × BitVec 4)) : CohOnly s (dirPut s j l) := rfl

/-- Invalidating copies touches the die caches and their directories only. -/
theorem invalidate_cohOnly (s : State) (p : Nat → Bool) : CohOnly s (invalidate s p) :=
  cohOnly_trans (each_cohOnly _ (dropCopies_cohOnly p) _ s) (each_cohOnly _ (fun s j => dirPut_cohOnly s j _) _ _)

theorem mirGet_none (h : s.mir.ents = []) (n : Nat) : mirGet s n = Mirror.off := by
  rw [mirGet, h]
  rfl

theorem mirPieces_none (h : s.mir.ents = []) (a len n : Nat) : mirPieces s a len n = [] := by
  simp [mirPieces, mirGet_none h, Mirror.off]

theorem mirNote_none (h : s.mir.ents = []) (a len n : Nat) : mirNote a len s n = s := by
  simp [mirNote, mirPieces_none h]

theorem rebNote_none (h : s.mir.ents = []) (a len n : Nat) : rebNote a len s n = s := by
  simp [rebNote, mirGet_none h, Mirror.off]

/-- With no mirror entry in use a home write leaves nothing for the mirror sender. -/
theorem each_mirNote_none (h : s.mir.ents = []) (a len : Nat) (l : List Nat) :
    each l s (fun s n => rebNote a len (mirNote a len s n) n) = s :=
  foldl_id _ _ _ (fun n _ => by rw [mirNote_none h, rebNote_none h])

theorem mirNeeds_none (h : s.mir.ents = []) (a len : Nat) : mirNeeds s a len = 0 := by
  have hsum : ∀ l : List Nat, l.foldl (fun k n => k + (mirPieces s a len n).length) 0 = 0 := by
    intro l
    induction l with
    | nil => rfl
    | cons n r ih =>
      rw [List.foldl_cons, mirPieces_none h]
      exact ih
  exact hsum _

theorem mirHolds_sound (h : Sound s) (a len : Nat) : mirHolds s a len = false := by
  obtain ⟨_, _, hinv, hents⟩ := h
  simp [mirHolds, mirHoldsAll, dirHolds, hinv, mirNeeds_none hents]

theorem touchesLost_sound (h : Sound s) (a len : Nat) : touchesLost s a len = false := by
  obtain ⟨_, hlost, _, _⟩ := h
  have hnone : (List.range (stacksOf s)).any (fun j => (stackGet s j).lost) = false := by simpa using hlost
  simp [touchesLost, hnone]

theorem notePartial_sound (h : Sound s) (a len : Nat) : notePartial s a len = s := by
  obtain ⟨hbad, _⟩ := h
  simp [notePartial, badIn, hbad, each]

/-- A home write changes its bytes, and of all else only what the die caches hold. -/
theorem hbmWrite_sound (h : Sound s) : CohOnly (memPut s a bs) (hbmWrite s a bs) := by
  obtain ⟨hbad, _, _, hents⟩ := h
  have happly : applyWrite s a bs = memPut s a bs := by simp [applyWrite, hbad]
  have hinv := invalidate_cohOnly (memPut s a bs) (fun l => decide (a / 128 ≤ l) && decide (l ≤ (a + bs.length - 1) / 128))
  have ht : (invalidate (memPut s a bs) (fun l => decide (a / 128 ≤ l) && decide (l ≤ (a + bs.length - 1) / 128))).mir.ents = [] := by
    rw [hinv]
    exact hents
  unfold hbmWrite
  rw [happly]
  dsimp only
  rw [each_mirNote_none ht]
  exact hinv

/-- A write through the package map that lands in sound HBM is a home write. -/
theorem pkgWrite_hbm {path : RegPath} {hv : HostView} (hb : bs ≠ []) (hd : decodeAddr s a = .hbm) (ho : hbmOk s a bs.length = true)
    (h : Sound s) : pkgWrite path hv a bs s = hbmWrite s a bs := by
  simp [pkgWrite, hb, mapRefusal_hbm hd ho, hd, mirHolds_sound h, touchesLost_sound h, notePartial_sound h]

end

/-- A write through the window goes to package memory once the firmware runs. -/
theorem bar2Put_up {s : State} {hv : HostView} {off : Nat} {bs : List Byte} (hfw : fwUp s = true) (hw : off + bs.length ≤ 2 ^ 36) :
    bar2Put hv off bs s = pkgWrite .mirror hv (s.hif.bar2Base.toNat + off) bs s := by
  simp only [bar2Put, bar2Size, Nat.not_lt.2 hw, hfw, if_false, Bool.not_true, Bool.false_eq_true]

/-! The boot buffer (R469). -/

/-- A boot buffer with the first `n` of the bytes `bs` put at `off`. -/
def bufPut (off : Nat) (bs : List Byte) (n : Nat) (t : Tbl Byte) : Tbl Byte :=
  (List.range n).foldl (fun t i => if off + i < bootBufSize then tblSet (fun _ => 0) t (off + i) (bs.getD i 0) else t) t

theorem bufPut_succ (off : Nat) (bs : List Byte) (n : Nat) (t : Tbl Byte) (h : off + n < bootBufSize) :
    bufPut off bs (n + 1) t = tblSet (fun _ => 0) (bufPut off bs n t) (off + n) (bs.getD n 0) := by
  simp [bufPut, List.range_succ, h]

theorem tblGet_bufPut_out (off : Nat) (bs : List Byte) (n : Nat) (t : Tbl Byte) (k : Nat) (hn : off + n ≤ bootBufSize)
    (h : k < off ∨ off + n ≤ k) : tblGet (fun _ => 0) (bufPut off bs n t) k = tblGet (fun _ => 0) t k := by
  induction n with
  | zero => rfl
  | succ n ih => rw [bufPut_succ _ _ _ _ (by omega), tblGet_set_ne _ _ _ _ _ (by omega), ih (by omega) (by omega)]

theorem tblGet_bufPut_in (off : Nat) (bs : List Byte) (n : Nat) (t : Tbl Byte) (j : Nat) (hn : off + n ≤ bootBufSize) (h : j < n) :
    tblGet (fun _ => 0) (bufPut off bs n t) (off + j) = bs.getD j 0 := by
  induction n with
  | zero => omega
  | succ n ih =>
    rw [bufPut_succ _ _ _ _ (by omega), tblGet_set]
    split
    · next heq => rw [show j = n by omega]
    · next hne => exact ih (by omega) (by omega)

/-- Before the firmware runs, and while no image is being verified, a write of BAR2 goes to the boot buffer. -/
theorem bar2Put_boot {s : State} {hv : HostView} {off : Nat} {bs : List Byte} (hfw : fwUp s = false) (hst : s.boot.stage ≠ 3)
    (h : off + bs.length ≤ bootBufSize) :
    bar2Put hv off bs s = { s with boot := { s.boot with buf := bufPut off bs bs.length s.boot.buf } } := by
  have hw : ¬ bar2Size < off + bs.length := by
    simp only [bootBufSize, bar2Size] at h ⊢
    omega
  rw [bar2Put, if_neg hw, hfw, bootPut, if_neg hst]
  rfl

/-! The commands. -/

/-- A command of the core domain, by its effect. -/
theorem run_of_up {f : State → State} {s t : State} (hu : Up s) (hf : f s = t) : run s f = .next t := by
  rw [run_up s f hu, hf]

/-- REG_WRITE_OTHER while the core domain runs. -/
theorem execRegWriteOther_up {s : State} {off : Nat} {bytes : List Byte} {en : Bool} {hv : HostView} (hu : Up s) :
    execRegWriteOther off bytes en hv s = .next (fabricRest (barStore .host hv off bytes en s)) := by
  unfold execRegWriteOther onFabric fabricRest
  rw [run_up s _ hu]

/-- A write of BAR0 that is refused with CMD_ERR. -/
theorem execRegWriteOther_refused {s : State} {off : Nat} {bytes : List Byte} {en : Bool} {hv : HostView} (hi : Idle s)
    (h : barStore .host hv off bytes en s = hifCmdErr s) : ∃ t, execRegWriteOther off bytes en hv s = .next t ∧ Raised s t .hif 3 :=
  have hr := hifCmdErr_raised s
  ⟨_, onFabric_idle hi h (sameWork_of_told (sameWork_refl s) hr.1), hr⟩

/-- R7: a write of 1 clears an event bit. -/
theorem execRegWriteOther_event {s : State} {hv : HostView} (v : W32) (b : EvBlk) (hi : Idle s) (hfw : fwUp s = true) :
    execRegWriteOther (evOffset b) (leBytes 4 v.toNat) true hv s = .next (evPut s b (evGet s b &&& ~~~v)) := by
  have hlt : evOffset b < 0x2000000 := by cases b <;> decide
  have hal : evOffset b % 4 = 0 := by cases b <;> rfl
  have hat : evAt (evOffset b) = some b := by cases b <;> rfl
  refine onFabric_idle hi ?_ ⟨rfl, rfl, rfl, rfl⟩
  rw [barStore_leBytes v hfw hlt hal (is64_event s b), write32, hat]
  rfl

/-- R42, R373: a write through the window changes its bytes of memory, and of all else only what the die caches hold. -/
theorem execBar2Write_hbm {s : State} {off : Nat} {bytes : List Byte} {hv : HostView} (hi : Idle s) (hfw : fwUp s = true) (hb : bytes ≠ [])
    (hw : off + bytes.length ≤ 2 ^ 36) (hd : decodeAddr s (s.hif.bar2Base.toNat + off) = .hbm)
    (ho : hbmOk s (s.hif.bar2Base.toNat + off) bytes.length = true) (hs : Sound s) :
    ∃ t, execBar2Write off bytes hv s = .next t ∧
      (∀ j < bytes.length, memGet t.mem (s.hif.bar2Base.toNat + off + j) = bytes.getD j 0) ∧
      (∀ b, (b < s.hif.bar2Base.toNat + off ∨ s.hif.bar2Base.toNat + off + bytes.length ≤ b) → memGet t.mem b = memGet s.mem b) ∧
      t = { s with mem := t.mem, coh := t.coh } := by
  generalize ha : s.hif.bar2Base.toNat + off = a at hd ho ⊢
  have hput : bar2Put hv off bytes s = hbmWrite s a bytes := by
    rw [bar2Put_up hfw hw, ha, pkgWrite_hbm hb hd ho hs]
  have hcoh := hbmWrite_sound (a := a) (bs := bytes) hs
  have hmem : (hbmWrite s a bytes).mem = memWrite s.mem a bytes := by rw [hcoh]; rfl
  refine ⟨_, onFabric_idle hi hput (by rw [hcoh]; exact ⟨rfl, rfl, rfl, rfl⟩), fun j hj => ?_, fun b hout => ?_, ?_⟩
  · rw [hmem, memGet_write_in _ _ _ _ hj, List.getD_eq_getElem?_getD, List.getElem?_eq_getElem hj, Option.getD_some]
  · rw [hmem, memGet_write_out _ _ _ _ hout]
  · rw [hmem]
    exact hcoh

/-- R469: before the firmware runs, and while no image is being verified, a write through the window changes its bytes of the boot buffer. -/
theorem execBar2Write_boot {s : State} {off : Nat} {bytes : List Byte} {hv : HostView} (hi : Idle s) (hfw : fwUp s = false)
    (hst : s.boot.stage ≠ 3) (h : off + bytes.length ≤ bootBufSize) : ∃ t, execBar2Write off bytes hv s = .next t ∧
      (∀ j < bytes.length, tblGet (fun _ => 0) t.boot.buf (off + j) = bytes.getD j 0) ∧
      (∀ j, (j < off ∨ off + bytes.length ≤ j) → tblGet (fun _ => 0) t.boot.buf j = tblGet (fun _ => 0) s.boot.buf j) ∧
      t = { s with boot := { s.boot with buf := t.boot.buf } } :=
  ⟨_, onFabric_idle hi (bar2Put_boot hfw hst h) ⟨rfl, rfl, rfl, rfl⟩, fun j hj => tblGet_bufPut_in _ _ _ _ j h hj,
    fun j hj => tblGet_bufPut_out _ _ _ _ j h hj, rfl⟩

/-- Settles O53: each shape of a write by the access rule it meets, the closed registers one by one, reads by what package memory gives, and
writes of BAR2 as home writes or as bytes of the boot buffer. -/
theorem barAccess : Obligations.BarAccess := by
  unfold Obligations.BarAccess
  constructor
  · rintro s off n v bytes path hv ⟨hup, hfw⟩
    refine ⟨?lock, ?unlocked, ?read, ?readErr, ?event, ?pwrCtrl, ?half, ?misshapen, ?pair, ?word, ?locked, ?mgmt⟩
    case lock =>
      intro hv0
      exact run_of_up hup ((fwOnly_up _ hfw).trans (if_pos hv0))
    case unlocked =>
      intro hv0
      exact run_of_up hup ((fwOnly_up _ hfw).trans (if_neg (Bool.eq_false_iff.1 hv0)))
    case read =>
      intro h1 h8 hsz
      exact run_of_up hup (bar0Get_fits (by simp [bar0Fits, h1, h8, hsz]))
    case readErr =>
      intro h8
      obtain ⟨htold, hbit⟩ := hifCmdErr_raised s
      refine ⟨_, run_of_up hup (bar0Get_crosses hfw ?_), ⟨told_trans htold (told_emit _ _), hbit⟩, _, rfl⟩
      simp [bar0Fits, Nat.not_le.2 h8]
    case event => exact fun b hi => execRegWriteOther_event v b hi hfw
    case pwrCtrl =>
      intro hi
      exact onFabric_idle hi (barStore_leBytes v hfw (by decide) rfl (is64_pwrCtrl s)) ⟨rfl, rfl, rfl, rfl⟩
    case half => exact fun hi ho ha hn h64 => execRegWriteOther_refused hi (barStore_half hfw ho ha h64 hn)
    case misshapen => exact fun en hi ho h => execRegWriteOther_refused hi (barStore_misshapen hfw ho h)
    case pair => exact fun x ho ha h64 hn hx => (execRegWriteOther_up hup).trans (by rw [barStore_pair hfw ho ha h64 hn hx])
    case word => exact fun ho ha h64 hn => (execRegWriteOther_up hup).trans (by rw [barStore_reg32 hfw ho ha h64 hn])
    case locked => exact barStore_locked hfw
    case mgmt => exact barStore_mgmt hfw
  · rintro s off n a bytes hv hi rfl
    have hup : Up s := hi.1
    refine ⟨?hbm, ?nothing, run_up s _ hup, ?table, ?outside, ?write, ?boot⟩
    case hbm =>
      intro hfw hn hw hd ho hr
      exact run_of_up hup (bar2Get_bytes hfw hw (pkgRead_hbm hn hd ho hr))
    case nothing =>
      intro hfw hn hw hd
      exact ⟨_, run_of_up hup (bar2Get_bytes hfw hw (pkgRead_nothing hn hd)),
        told_trans (told_refusedAccess s _ 0) (told_emit _ _), _, rfl⟩
    case table =>
      intro hfw h
      exact run_of_up hup ((if_pos hfw).trans (bar4Get_table h))
    case outside =>
      intro hfw ho hn h
      exact run_of_up hup ((if_pos hfw).trans (bar4Get_outside ho hn h))
    case write => exact fun hfw hb hw hd ho hs => execBar2Write_hbm hi hfw hb hw hd ho hs
    case boot => exact fun hfw hst h => execBar2Write_boot hi hfw hst h

end Sys2Proof.Machine
